-- ==== Sys2Proof/Word.lean ====
section
/-! DEFINITION. The word types of the block (00_scope.md R7): bytes, command words, engine words and the
128-bit products of the sampler. Bit 0 is the least significant bit (R6). -/

namespace Sys2Proof

/-- `u8` of R7. -/
abbrev Byte := BitVec 8

/-- `u32` of R7: a command word (R70). -/
abbrev Word32 := BitVec 32

/-- `u64` of R7: an engine word or an interface register. -/
abbrev Word64 := BitVec 64

/-- `u128` of R7: an exact product of two engine words. -/
abbrev Word128 := BitVec 128

/-- The three mixing registers `(A, B, C)` in image order (R20, R170). -/
abbrev Triple := Word64 × Word64 × Word64

end Sys2Proof
end

