-- ==== Sys2Proof/Syntax.lean ====
section
/-! DEFINITION. The 18 commands of 30_encoding.md R72, one constructor per row of spec/opcode_table.json. -/

namespace Sys2Proof

/-- A command (R70, R72). `seed` and `read` carry the field `CNT`; every other command has `CNT = 0`. -/
inductive Instr where
  /-- R180. -/
  | nop
  /-- R106: `cnt` seed words, from `ARG0` on. -/
  | seed (cnt : BitVec 4)
  /-- R108. -/
  | next64
  /-- R150. -/
  | uint32
  /-- R151. -/
  | int31
  /-- R152. -/
  | int63
  /-- R153. -/
  | int
  /-- R156. -/
  | float64
  /-- R157. -/
  | float32
  /-- R124. -/
  | uint64n
  /-- R125. -/
  | uint32n
  /-- R126. -/
  | uintn
  /-- R127. -/
  | int64n
  /-- R128. -/
  | int32n
  /-- R129. -/
  | intn
  /-- R140: `cnt` bytes into `RESULT`. -/
  | read (cnt : BitVec 4)
  /-- R172. -/
  | save
  /-- R173. -/
  | restore
deriving DecidableEq, Repr

end Sys2Proof
end

