-- ==== Sys2Proof/WellFormed.lean ====
section
/-! DEFINITION. Which terms of `Instr` spell a command: the legal `CNT` values of 30_encoding.md R72. -/

namespace Sys2Proof

/-- The legal `CNT` of R72: 1, 2 or 3 for `seed`, 0 to 8 for `read`; no other command carries one. -/
def Instr.wf : Instr → Bool
  | .seed cnt => 1 ≤ cnt.toNat && cnt.toNat ≤ 3
  | .read cnt => cnt.toNat ≤ 8
  | .nop | .next64 | .uint32 | .int31 | .int63 | .int | .float64 | .float32
  | .uint64n | .uint32n | .uintn | .int64n | .int32n | .intn | .save | .restore => true

end Sys2Proof
end

