-- ==== Sys2Proof/Decode.lean ====
section
/-! DEFINITION. Decoding a command word (30_encoding.md R70, R71, R72), rejecting by name, and the encoder
(R73). A command is one 32-bit word, so decoding is a total function of the word (R76). -/

namespace Sys2Proof

/-- Why a word spells no command, in the order of R71's checks. All three raise ILLEGAL_COMMAND. -/
inductive DecodeError where
  /-- `RSV != 0`. -/
  | reservedBits
  /-- `OP` is not a row of R72. -/
  | unknownOpcode
  /-- `CNT` is not in the legal set of `OP`. -/
  | illegalCount
deriving DecidableEq, Repr

/-- `OP`, bits [7:0] (R70). -/
def opField (w : Word32) : Byte := w.extractLsb' 0 8

/-- `CNT`, bits [11:8] (R70). -/
def cntField (w : Word32) : BitVec 4 := w.extractLsb' 8 4

/-- `RSV`, bits [31:12] (R70). -/
def rsvField (w : Word32) : BitVec 20 := w.extractLsb' 12 20

/-- What a row of R72 makes of `CNT`: it must be 0 for a command that carries no count. -/
def noCount (i : Instr) (cnt : BitVec 4) : Except DecodeError Instr :=
  if cnt = 0 then .ok i else .error .illegalCount

/-- What the rows of `seed` and `read` make of `CNT`: the legal set of R72. -/
def withCount (i : Instr) : Except DecodeError Instr :=
  if i.wf then .ok i else .error .illegalCount

/-- The rows of R72. -/
def decodeRow (op : Byte) (cnt : BitVec 4) : Except DecodeError Instr :=
  match op.toNat with
  | 0x00 => noCount .nop cnt
  | 0x01 => withCount (.seed cnt)
  | 0x10 => noCount .next64 cnt
  | 0x11 => noCount .uint32 cnt
  | 0x12 => noCount .int31 cnt
  | 0x13 => noCount .int63 cnt
  | 0x14 => noCount .int cnt
  | 0x18 => noCount .float64 cnt
  | 0x19 => noCount .float32 cnt
  | 0x20 => noCount .uint64n cnt
  | 0x21 => noCount .uint32n cnt
  | 0x22 => noCount .uintn cnt
  | 0x28 => noCount .int64n cnt
  | 0x29 => noCount .int32n cnt
  | 0x2A => noCount .intn cnt
  | 0x30 => withCount (.read cnt)
  | 0x40 => noCount .save cnt
  | 0x41 => noCount .restore cnt
  | _ => .error .unknownOpcode

/-- R71: the three checks, in their order. -/
def decode (w : Word32) : Except DecodeError Instr :=
  if rsvField w ≠ 0 then .error .reservedBits else decodeRow (opField w) (cntField w)

/-- The opcode of each row of R72. -/
def opcode : Instr → Byte
  | .nop => 0x00
  | .seed _ => 0x01
  | .next64 => 0x10
  | .uint32 => 0x11
  | .int31 => 0x12
  | .int63 => 0x13
  | .int => 0x14
  | .float64 => 0x18
  | .float32 => 0x19
  | .uint64n => 0x20
  | .uint32n => 0x21
  | .uintn => 0x22
  | .int64n => 0x28
  | .int32n => 0x29
  | .intn => 0x2A
  | .read _ => 0x30
  | .save => 0x40
  | .restore => 0x41

/-- The field `CNT` of a command. -/
def count : Instr → BitVec 4
  | .seed cnt => cnt
  | .read cnt => cnt
  | .nop | .next64 | .uint32 | .int31 | .int63 | .int | .float64 | .float32
  | .uint64n | .uint32n | .uintn | .int64n | .int32n | .intn | .save | .restore => 0

/-- The word `{RSV, CNT, OP}` of R70 with `RSV = 0`. -/
def encode (i : Instr) : Word32 := 0#20 ++ count i ++ opcode i

/-- The instruction the decoder reads from a table row's bits: the low `nbits` bits of `w`, the rest of
the 32-bit command word zero. -/
def decodeTableWord (nbits w : Nat) : Option Instr :=
  (decode (BitVec.ofNat 32 (w % 2 ^ nbits))).toOption

end Sys2Proof
end

