-- ==== Sys2Proof/Config.lean ====
section
/-! DEFINITION. The implementation parameters of 00_scope.md R5. The OPEN ones are constants without a
body, so no proof can see their values; the ones the spec gives a default are fields of `Config.Params`,
which the operations of the machine take as arguments, and `Config.params` holds the defaults. -/

namespace Sys2Proof

/-- Which mixing register the output word sums with the counter (R102). -/
inductive MixRegister where
  | a
  | b
  | c
deriving DecidableEq, Repr, Inhabited

/-- `P_REFINE` (R121): the sampler's refinement condition. -/
inductive RefineMode where
  /-- `frac < n`, the default. -/
  | docLt
  /-- `frac > 2^64 - n`. -/
  | canonGt
deriving DecidableEq, Repr

/-- `P_WORDSIZE` (R5): the width of the platform word. -/
inductive WordSize where
  | w32
  | w64
deriving DecidableEq, Repr

/-- `P_READ_FORM` (R142): where the unconsumed bytes sit in `RV`. -/
inductive ReadForm where
  /-- The unconsumed bytes are the low `RP` bytes; consumed ones are shifted out. The default. -/
  | shift
  /-- The word is kept whole; the unconsumed bytes are its high `RP` bytes. -/
  | index
deriving DecidableEq, Repr

/-- The parameters to which R5 gives a default. -/
structure Config.Params where
  /-- `P_WARMUP`: transitions discarded after seeding (R106). -/
  warmup : Nat
  /-- `P_REFINE` (R121). -/
  refine : RefineMode
  /-- `P_ZERO_N_DRAWS`: 0 or 1 words drawn for a zero bound (R123). -/
  zeroNDraws : Fin 2
  /-- `P_WORDSIZE` (R126, R129, R153). -/
  wordSize : WordSize
  /-- `P_READ_FORM` (R142). -/
  readForm : ReadForm
deriving DecidableEq, Repr

/-- The defaults of R5 (decisions D8, D10, D11, D13, D16). Log 11. -/
def Config.params : Config.Params where
  warmup := 0
  refine := .docLt
  zeroNDraws := 0
  wordSize := .w64
  readForm := .shift

/-- `P_OUT` (R5, R102), OPEN: a conforming block sums one mixing register and the counter, and the spec
does not say which register. Log 8. -/
opaque Config.outRegister : MixRegister

/-- `P_MIX` (R5, R103), OPEN: for each counter value a bijection of the triples `(A, B, C)` that reads
nothing else. Log 9. -/
opaque Config.mix : Word64 → Equiv.Perm Triple

/-- `P_SEED1` (R5, R106), OPEN. Log 10. -/
opaque Config.seed1 : Word64 → Triple

/-- `P_SEED2` (R5, R106), OPEN. Log 10. -/
opaque Config.seed2 : Word64 → Word64 → Triple

/-- `P_SEED3` (R5, R106), OPEN. Log 10. -/
opaque Config.seed3 : Word64 → Word64 → Word64 → Triple

/-- `P_BASE / 128` (R5), OPEN. Log 7. -/
opaque Config.baseBlock : BitVec 57

/-- `P_BASE` (R5): a 64-bit byte address, a multiple of 128. Log 7. -/
def Config.base : Word64 := Config.baseBlock ++ 0#7

end Sys2Proof
end

