-- ==== Sys2Proof/Machine/State.lean ====
section
/-! DEFINITION. The state of the block (10_state.md), the actions of its host (20_memory.md R51), the answers
it gives them, and the state after reset (70_reset_and_hazards.md R230). -/

namespace Sys2Proof.Machine

/-- The generator state `(A, B, C, W, RV, RP)` of R24. -/
structure Generator where
  /-- Mixing register `A` (R20). -/
  a : Word64
  /-- Mixing register `B` (R20). -/
  b : Word64
  /-- Mixing register `C` (R20). -/
  c : Word64
  /-- The counter `W` (R21). -/
  w : Word64
  /-- The pending value `RV` of the byte reader (R22). -/
  rv : Word64
  /-- The cursor `RP`, read as a signed value (R23). -/
  rp : Byte
deriving DecidableEq, Repr

/-- The error codes 1 to 5 of 60_exceptions.md R200. -/
inductive CommandError where
  /-- Code 1: a signed bound `<= 0` (R127 to R129). -/
  | invalidArgument
  /-- Code 2: `IMGLEN < 41` (R173). -/
  | insufficientData
  /-- Code 3: a word that spells no command (R71). -/
  | illegalCommand
  /-- Code 4: `SEEDED = 0` (R26, R101). -/
  | notSeeded
  /-- Code 5: a cursor outside [0, 8] at `READ` (R141). -/
  | cursorRange
deriving DecidableEq, Repr

/-- The widths of a host access, in bytes 1, 2, 4 or 8 (R51). -/
inductive Width where
  | b1
  | b2
  | b4
  | b8
deriving DecidableEq, Repr

/-- What reaches the block from outside: a host access at the address `P_BASE + off` (R51), `off` taken
modulo 2^64 so that every address is some offset (log 7), or a reset (R230). -/
inductive HostAction where
  /-- `MemRead(P_BASE + off, n)`. -/
  | read (off : Word64) (n : Width)
  /-- `MemWrite(P_BASE + off, n, v)`; only the low `8 n` bits of `v` are on the bus (log 19). -/
  | write (off : Word64) (n : Width) (v : Word64)
  /-- The platform's reset input (log 15). -/
  | reset
deriving DecidableEq, Repr

/-- The block's answer to one access (log 4). -/
inductive BusResponse where
  /-- A read's value, zero-extended (R52). -/
  | data (v : Word64)
  /-- An admitted write was performed. -/
  | done
  /-- The bus error of an access that is not admitted (R206). -/
  | busError
deriving DecidableEq, Repr

/-- The reasons the model stops with a fault. -/
inductive Fault where
  /-- Raised by `State.readGenerator`, the one accessor of the generator, while it holds no value: the spec has
  a model fault there (R230; U13 of 93_implementation_defined.md). Safe: no value is invented. No command reaches
  it, since each raises NOT_SEEDED first (R101; log 16). -/
  | generatorHoldsNoValue
deriving DecidableEq, Repr

/-- The reasons the model gives an instruction no meaning. -/
inductive Refusal where
  /-- Raised by an arm of `exec` whose instruction has no meaning yet. Safe: nothing can be proved of it. -/
  | notModelled (mnemonic : String)
deriving DecidableEq, Repr

/-- The state of the block. `pending` and `response` are the model's own (logs 1 and 4); every other field
is the spec's. -/
structure State where
  /-- `CMD[31:0]`, the last command word written (R31). -/
  cmd : Word32
  /-- `STATUS.ERR` (R32): `none` is the code 0, `OK`. -/
  err : Option CommandError
  /-- `SEEDED`, `STATUS[4]` (R26). -/
  seeded : Bool
  /-- `STICKY`, `STATUS[5]` (R32). -/
  sticky : Bool
  /-- `ARG0` (R33). -/
  arg0 : Word64
  /-- `ARG1` (R33). -/
  arg1 : Word64
  /-- `ARG2` (R33). -/
  arg2 : Word64
  /-- `RESULT` (R34). -/
  result : Word64
  /-- `IMGLEN` (R35). -/
  imgLen : Word64
  /-- `IMG[0]` to `IMG[47]` (R37): the cell `(i, v)` says that byte `i` is `v`; an unlisted byte is 0, its
  value after reset (log 13). -/
  img : List Host.Cell
  /-- The generator state (R20 to R24). It holds a value only while `seeded` (R26). -/
  gen : Generator
  /-- The actions that have reached the block and are not yet performed, oldest first (R61; log 1). -/
  pending : List HostAction
  /-- The answer to the last access performed, `none` before the first (log 4). -/
  response : Option BusResponse
deriving DecidableEq, Repr

/-- The contents of the generator registers at reset. The spec gives none (R230); the model names zero,
which nothing reads while `SEEDED = 0` (log 6). -/
def Generator.atReset : Generator where
  a := 0
  b := 0
  c := 0
  w := 0
  rv := 0
  rp := 0

/-- R230: the state after reset. -/
def State.reset : State where
  cmd := 0
  err := none
  seeded := false
  sticky := false
  arg0 := 0
  arg1 := 0
  arg2 := 0
  result := 0
  imgLen := 0
  img := []
  gen := Generator.atReset
  pending := []
  response := none

end Sys2Proof.Machine
end

