-- ==== Sys2Proof/Machine/Ops.lean ====
section
/-! DEFINITION. The named operations every command is built on: bytes of a word, the image buffer, one update
per field of the state, raising an error and completing (60_exceptions.md R203), the engine transition
(40_engine.md R100) and the one guarded access to the generator (R101, R230). -/

namespace Sys2Proof.Machine

/-- The outcome of a command or of a step. -/
abbrev Result := Host.Outcome State Fault Refusal

/-! ### Bytes of a word (R6, R52) -/

/-- Byte `i` of `x`, its bits `[8i+7:8i]` (R6). -/
def byteOf (x : Word64) (i : Nat) : Byte := x.extractLsb' (8 * i) 8

/-- The word whose byte `j` is `l[j]`: the byte at the lowest place in bits [7:0] (R52). -/
def assemble : List Byte → Word64
  | [] => 0
  | b :: bs => (assemble bs <<< 8) ||| b.setWidth 64

/-- The bytes 0 to `n - 1` of `x`, lowest first (R52). -/
def bytesOf (x : Word64) (n : Nat) : List Byte := (List.range n).map (byteOf x)

/-- `x` with byte `i` replaced by `b`, the other bytes kept (R53). -/
def setByte (x : Word64) (i : Nat) (b : Byte) : Word64 := assemble ((bytesOf x 8).set i b)

/-! ### The image buffer (R37)

A list of cells in one canonical form (log 13): indexes strictly rising and below 48, and no cell of value
0, which is what an unlisted byte reads as. -/

/-- The canonical form of the image buffer. -/
abbrev Memory.wf (m : List Host.Cell) : Prop :=
  m.Pairwise (fun x y => x.1 < y.1) ∧ ∀ x ∈ m, x.1 < 48 ∧ x.2 ≠ 0

/-- What a byte that no cell lists reads as: its reset value (R37, R230). -/
def Memory.unlisted : Byte := 0

/-- Byte `i` of the image buffer. -/
def Memory.read : List Host.Cell → Nat → Byte
  | [], _ => Memory.unlisted
  | x :: m, i => if x.1 = i then x.2 else Memory.read m i

/-- The cell of byte `i` put before the first cell of a larger index. -/
def Memory.insert (i : Nat) (b : Byte) : List Host.Cell → List Host.Cell
  | [] => [(i, b)]
  | x :: m => if i < x.1 then (i, b) :: x :: m else x :: Memory.insert i b m

/-- `IMG[i] <- b`, keeping the canonical form: a byte at its unlisted value has no cell. -/
def Memory.write (m : List Host.Cell) (i : Nat) (b : Byte) : List Host.Cell :=
  let others := m.filter fun x => x.1 != i
  if b = Memory.unlisted then others else Memory.insert i b others

/-- `IMG[i] <- bs[0]`, `IMG[i + 1] <- bs[1]`, and so on. -/
def Memory.writeBytes : List Host.Cell → Nat → List Byte → List Host.Cell
  | m, _, [] => m
  | m, i, b :: bs => Memory.writeBytes (Memory.write m i b) (i + 1) bs

/-- The bytes `IMG[i]` to `IMG[i + n - 1]`, lowest first. -/
def Memory.readBytes (m : List Host.Cell) (i n : Nat) : List Byte :=
  (List.range n).map fun j => Memory.read m (i + j)

/-! ### One update per field -/

/-- `cmd`: CMD[31:0] (R31). -/
def State.setCmd (s : State) (v : Word32) : State := { s with cmd := v }

/-- `err`: STATUS.ERR (R32). -/
def State.setErr (s : State) (v : Option CommandError) : State := { s with err := v }

/-- `seeded`: SEEDED (R26). -/
def State.setSeeded (s : State) (v : Bool) : State := { s with seeded := v }

/-- `sticky`: STICKY (R32). -/
def State.setSticky (s : State) (v : Bool) : State := { s with sticky := v }

/-- `arg0`: ARG0 (R33). -/
def State.setArg0 (s : State) (v : Word64) : State := { s with arg0 := v }

/-- `arg1`: ARG1 (R33). -/
def State.setArg1 (s : State) (v : Word64) : State := { s with arg1 := v }

/-- `arg2`: ARG2 (R33). -/
def State.setArg2 (s : State) (v : Word64) : State := { s with arg2 := v }

/-- `result`: RESULT (R34). -/
def State.setResult (s : State) (v : Word64) : State := { s with result := v }

/-- `imgLen`: IMGLEN (R35). -/
def State.setImgLen (s : State) (v : Word64) : State := { s with imgLen := v }

/-- `img`: the image buffer (R37). -/
def State.setImg (s : State) (v : List Host.Cell) : State := { s with img := v }

/-- `gen`: the generator state (R24). -/
def State.setGen (s : State) (v : Generator) : State := { s with gen := v }

/-- `pending`: the queue of actions (log 1). -/
def State.setPending (s : State) (v : List HostAction) : State := { s with pending := v }

/-- `response`: the answer to the host (log 4). -/
def State.setResponse (s : State) (v : Option BusResponse) : State := { s with response := v }

/-! ### Ending a command (R203) -/

/-- The end of a command that completes: `STATUS.ERR <- 0` (R32). -/
def complete (s : State) : Result := .next (s.setErr none)

/-- `raise Error(e)` (R203): `STATUS.ERR <- e`, `STICKY <- 1`, and nothing else. The block's one way of taking
an error; it has no trap entry and no trap return (R209, R210). -/
def raise (e : CommandError) (s : State) : Result := .next ((s.setErr (some e)).setSticky true)

/-! ### The engine (R100) -/

/-- `P_OUT` (R102): the wrapping sum of the configured mixing register and the counter. -/
def outputWord (a b c w : Word64) : Word64 :=
  match Config.outRegister with
  | .a => a + w
  | .b => b + w
  | .c => c + w

/-- `Next()` (R100): the output word and the generator after the transition. Every right-hand side reads the
state before it; `RV` and `RP` are untouched. -/
def Generator.next (g : Generator) : Word64 × Generator :=
  let m := Config.mix g.w (g.a, g.b, g.c)
  (outputWord g.a g.b g.c g.w, { g with a := m.1, b := m.2.1, c := m.2.2, w := g.w + 1 })

/-- `repeat k times: Next()`, the outputs discarded (R106, R123). -/
def Generator.advance : Nat → Generator → Generator
  | 0, g => g
  | k + 1, g => Generator.advance k g.next.2

/-! ### Access to the generator -/

/-- The one accessor of the generator: while `SEEDED = 0` it holds no value, and reading it faults (R26,
R230). -/
def State.readGenerator (s : State) : Except Fault Generator :=
  if s.seeded then .ok s.gen else .error .generatorHoldsNoValue

/-- A command that reads the generator: it raises NOT_SEEDED while `SEEDED = 0` (R101), and else runs `k` on
the generator. -/
def withGenerator (s : State) (k : Generator → Result) : Result :=
  if s.seeded then
    match s.readGenerator with
    | .ok g => k g
    | .error f => .fault f
  else raise .notSeeded s

/-- The end of a command that has a result (R34): the generator after its draws and `RESULT` are written, and
`STATUS.ERR <- 0`. -/
def deliver (r : Word64 × Generator) (s : State) : Result :=
  complete ((s.setGen r.2).setResult r.1)

end Sys2Proof.Machine
end

