-- ==== Sys2Proof/Machine/Codec.lean ====
section
/-! DEFINITION. The state codec of 44_codec.md: the 41-byte image, `SAVE` and `RESTORE`. -/

namespace Sys2Proof.Machine

/-- The 48 bytes `SAVE` writes: the image of R170 in bytes 0 to 40, then zeros (R172). -/
def imageOf (g : Generator) : List Byte :=
  bytesOf g.a 8 ++ bytesOf g.b 8 ++ bytesOf g.c 8 ++ bytesOf g.w 8 ++ bytesOf g.rv 8 ++
    g.rp :: List.replicate 7 0

/-- The generator an image holds (R170, R173). -/
def generatorOf (m : List Host.Cell) : Generator where
  a := assemble (Memory.readBytes m 0 8)
  b := assemble (Memory.readBytes m 8 8)
  c := assemble (Memory.readBytes m 16 8)
  w := assemble (Memory.readBytes m 24 8)
  rv := assemble (Memory.readBytes m 32 8)
  rp := Memory.read m 40

/-- The length of an image in bytes (R170). -/
def imageLength : Nat := 41

/-- `SAVE` (R172). -/
def execSave (s : State) : Result :=
  withGenerator s fun g =>
    complete ((s.setImg (Memory.writeBytes s.img 0 (imageOf g))).setImgLen (BitVec.ofNat 64 imageLength))

/-- `RESTORE` (R173). It does not need `SEEDED = 1`, and accepts every image of the length (R171). -/
def execRestore (s : State) : Result :=
  if s.imgLen.toNat < imageLength then raise .insufficientData s
  else complete ((s.setGen (generatorOf s.img)).setSeeded true)

end Sys2Proof.Machine
end

