-- ==== Sys2Proof/Machine/Control.lean ====
section
/-! DEFINITION. The control command of 45_control.md. -/

namespace Sys2Proof.Machine

/-- `NOP` (R180): `STATUS.ERR <- 0`, whether or not the block is seeded. -/
def execNop (s : State) : Result := complete s

end Sys2Proof.Machine
end

