-- ==== Sys2Proof/Machine/Converters.lean ====
section
/-! DEFINITION. The numeric converters of 43_converters.md: one draw each. -/

namespace Sys2Proof.Machine

/-- `v & (2^k - 1)`: the low `k` bits of a raw word (R154). -/
def lowBits (k : Nat) (v : Word64) : Word64 := v &&& BitVec.ofNat 64 (2 ^ k - 1)

/-- `F64bits(m)` (R155), for `m < 2^53`: sign 0, exponent field `970 + e`, the fraction left-aligned, with
`e = floor(log2 m)`. Log 21. -/
def f64bits (m : Word64) : Word64 :=
  if m = 0 then 0
  else
    let e := m.toNat.log2
    0#1 ++ BitVec.ofNat 11 (970 + e) ++ (m <<< (52 - e)).extractLsb' 0 52

/-- `F32bits(m)` (R155), for `m < 2^24`. Log 21. -/
def f32bits (m : Word64) : Word32 :=
  if m = 0 then 0
  else
    let e := m.toNat.log2
    0#1 ++ BitVec.ofNat 8 (103 + e) ++ (m <<< (23 - e)).extractLsb' 0 23

/-- What every converter does: one draw, whose word `f` reduces to the result. -/
def convert (f : Word64 → Word64) (s : State) : Result :=
  withGenerator s fun g => deliver (f g.next.1, g.next.2) s

/-- `FLOAT64` of a raw word (R156): the low 53 bits times `2^-53`. -/
def float64Of (v : Word64) : Word64 := f64bits (lowBits 53 v)

/-- `FLOAT32` of a raw word (R157): the low 24 bits times `2^-24`, zero-extended. -/
def float32Of (v : Word64) : Word64 := (f32bits (lowBits 24 v)).setWidth 64

/-- `INT` of a raw word for either `P_WORDSIZE` (R153). -/
def intOf (z : WordSize) (v : Word64) : Word64 :=
  match z with
  | .w64 => lowBits 63 v
  | .w32 => lowBits 31 v

/-- `UINT32` (R150). -/
def execUint32 (s : State) : Result := convert (lowBits 32) s

/-- `INT31` (R151). -/
def execInt31 (s : State) : Result := convert (lowBits 31) s

/-- `INT63` (R152). -/
def execInt63 (s : State) : Result := convert (lowBits 63) s

/-- `INT` (R153). -/
def execInt (s : State) : Result := convert (intOf Config.params.wordSize) s

/-- `FLOAT64` (R156). -/
def execFloat64 (s : State) : Result := convert float64Of s

/-- `FLOAT32` (R157). -/
def execFloat32 (s : State) : Result := convert float32Of s

end Sys2Proof.Machine
end

