-- ==== Sys2Proof/Machine/Operands.lean ====
section
/-! DEFINITION. The operand forms of 30_encoding.md R74: how a command extracts its operands from the `ARG`
registers. No operand is shifted or scaled, and `CNT` is used as it stands. -/

namespace Sys2Proof.Machine

/-- `ARG0` as an unsigned 64-bit bound (`uint64n`). -/
def bound64 (s : State) : Word64 := s.arg0

/-- `zext_64(ARG0[31:0])`; `ARG0[63:32]` is ignored (`uint32n`). -/
def bound32 (s : State) : Word64 := (s.arg0.extractLsb' 0 32).setWidth 64

/-- `sint_64(ARG0)` (R8; `int64n`). -/
def signedBound64 (s : State) : Int := s.arg0.toInt

/-- `sint_32(ARG0[31:0])`; `ARG0[63:32]` is ignored (R8; `int32n`). -/
def signedBound32 (s : State) : Int := (s.arg0.extractLsb' 0 32).toInt

/-- The seed words of `seed cnt`, combined by the configured strategy (R106); `none` for a `CNT` outside
1 to 3. -/
def seedTriple (cnt : BitVec 4) (s : State) : Option Triple :=
  match cnt.toNat with
  | 1 => some (Config.seed1 s.arg0)
  | 2 => some (Config.seed2 s.arg0 s.arg1)
  | 3 => some (Config.seed3 s.arg0 s.arg1 s.arg2)
  | _ => none

end Sys2Proof.Machine
end

