-- ==== Sys2Proof/Machine/Engine.lean ====
section
/-! DEFINITION. The commands of 40_engine.md: `SEED` and `NEXT64`. -/

namespace Sys2Proof.Machine

/-- The generator after seeding with `m` warm-up transitions (R106): the registers from the seed, `W = 1`,
`RV = 0`, `RP = 0`, then `m` discarded transitions. -/
def seededGenerator (m : Nat) (t : Triple) : Generator :=
  Generator.advance m { a := t.1, b := t.2.1, c := t.2.2, w := 1, rv := 0, rp := 0 }

/-- `SEED` (R106). It does not need `SEEDED = 1`. A count outside 1 to 3 spells no command (R71; log 12). -/
def execSeed (cnt : BitVec 4) (s : State) : Result :=
  match seedTriple cnt s with
  | some t => complete ((s.setGen (seededGenerator Config.params.warmup t)).setSeeded true)
  | none => raise .illegalCommand s

/-- `NEXT64` (R108): one raw word. -/
def execNext64 (s : State) : Result := withGenerator s fun g => deliver g.next s

end Sys2Proof.Machine
end

