-- ==== Sys2Proof/Machine/Reader.lean ====
section
/-! DEFINITION. The byte-stream reader of 42_byte_reader.md. -/

namespace Sys2Proof.Machine

/-- A cursor in [0, 8] as a signed value (R25). -/
def cursorLegal (g : Generator) : Bool := 0 ≤ g.rp.toInt && g.rp.toInt ≤ 8

/-- The refill of R140: at a cursor of 0, `RV <- Next()` and `RP <- 8`. -/
def refill (g : Generator) : Generator :=
  if g.rp = 0 then { g.next.2 with rv := g.next.1, rp := 8 } else g

/-- One byte taken from a generator whose cursor is not 0 (R140; R142 for the form `INDEX`). -/
def emitByte (f : ReadForm) (g : Generator) : Byte × Generator :=
  match f with
  | .shift => (byteOf g.rv 0, { g with rv := g.rv >>> 8, rp := g.rp - 1 })
  | .index => (byteOf g.rv (8 - g.rp.toNat), { g with rp := g.rp - 1 })

/-- One pass of R140's loop: refill if needed, then take a byte. -/
def takeByte (f : ReadForm) (g : Generator) : Byte × Generator := emitByte f (refill g)

/-- `L` passes of R140's loop: the bytes in the order taken, and the generator after them. -/
def takeBytes (f : ReadForm) : Nat → Generator → List Byte × Generator
  | 0, g => ([], g)
  | k + 1, g =>
    let d := takeByte f g
    let r := takeBytes f k d.2
    (d.1 :: r.1, r.2)

/-- `READ` in either form (R140): byte `i` taken is byte `i` of `RESULT`. -/
def readCommand (f : ReadForm) (len : Nat) (s : State) : Result :=
  withGenerator s fun g =>
    if cursorLegal g then
      let r := takeBytes f len g
      deliver (assemble r.1, r.2) s
    else raise .cursorRange s

/-- `READ` (R140, R141). A count above 8 spells no command (R71; log 12). -/
def execRead (cnt : BitVec 4) (s : State) : Result :=
  if cnt.toNat ≤ 8 then readCommand Config.params.readForm cnt.toNat s else raise .illegalCommand s

end Sys2Proof.Machine
end

