-- ==== Sys2Proof/Machine/Sampler.lean ====
section
/-! DEFINITION. The bounded integer sampler of 41_sampler.md and its six commands. -/

namespace Sys2Proof.Machine

/-- `mul128` (R7): the exact 128-bit product. -/
def mul128 (x y : Word64) : Word128 := x.setWidth 128 * y.setWidth 128

/-- `hi64` (R7). -/
def hi64 (p : Word128) : Word64 := p.extractLsb' 64 64

/-- `lo64` (R7). -/
def lo64 (p : Word128) : Word64 := p.extractLsb' 0 64

/-- `Refine(frac, n)` (R121), an unsigned comparison; `2^64 - n` is taken over the naturals. -/
def refineNeeded (r : RefineMode) (frac n : Word64) : Bool :=
  match r with
  | .docLt => frac.toNat < n.toNat
  | .canonGt => frac.toNat > 2 ^ 64 - n.toNat

/-- The carry out of `add64(frac, hi2)` (R120). -/
def carryOut (frac hi2 : Word64) : Word64 := if frac.toNat + hi2.toNat ≥ 2 ^ 64 then 1 else 0

/-- The result of `Sample64(n)` after a refinement draw, as a function of both raw words (R120). -/
def refinedResult (n v1 v2 : Word64) : Word64 :=
  hi64 (mul128 n v1) + carryOut (lo64 (mul128 n v1)) (hi64 (mul128 n v2))

/-- `Sample64(n)` (R120), for `n >= 1`. -/
def sample64 (r : RefineMode) (n : Word64) (g : Generator) : Word64 × Generator :=
  let d1 := g.next
  if refineNeeded r (lo64 (mul128 n d1.1)) n then
    let d2 := d1.2.next
    (refinedResult n d1.1 d2.1, d2.2)
  else (hi64 (mul128 n d1.1), d1.2)

/-- `Bounded(n)` (R123): a zero bound gives 0 after `P_ZERO_N_DRAWS` discarded draws. -/
def bounded (p : Config.Params) (n : Word64) (g : Generator) : Word64 × Generator :=
  if n = 0 then (0, Generator.advance p.zeroNDraws.val g) else sample64 p.refine n g

/-- The unsigned bounded commands (R124 to R126) on their bound `n`. -/
def unsignedBounded (p : Config.Params) (n : Word64) (s : State) : Result :=
  withGenerator s fun g => deliver (bounded p n g) s

/-- The signed bounded commands (R127 to R129): `n` is the signed bound and `pattern` its bits zero-extended
to 64, which is `n` itself where `n > 0` (log 20). -/
def signedBounded (p : Config.Params) (n : Int) (pattern : Word64) (s : State) : Result :=
  withGenerator s fun g =>
    if n ≤ 0 then raise .invalidArgument s else deliver (sample64 p.refine pattern g) s

/-- `UINTN` for either `P_WORDSIZE` (R126). -/
def unsignedPlatform (p : Config.Params) (s : State) : Result :=
  match p.wordSize with
  | .w64 => unsignedBounded p (bound64 s) s
  | .w32 => unsignedBounded p (bound32 s) s

/-- `INTN` for either `P_WORDSIZE` (R129). -/
def signedPlatform (p : Config.Params) (s : State) : Result :=
  match p.wordSize with
  | .w64 => signedBounded p (signedBound64 s) (bound64 s) s
  | .w32 => signedBounded p (signedBound32 s) (bound32 s) s

/-- `UINT64N` (R124). -/
def execUint64n (s : State) : Result := unsignedBounded Config.params (bound64 s) s

/-- `UINT32N` (R125): the 64-bit algorithm on the zero-extended bound. -/
def execUint32n (s : State) : Result := unsignedBounded Config.params (bound32 s) s

/-- `UINTN` (R126). -/
def execUintn (s : State) : Result := unsignedPlatform Config.params s

/-- `INT64N` (R127). -/
def execInt64n (s : State) : Result := signedBounded Config.params (signedBound64 s) (bound64 s) s

/-- `INT32N` (R128). -/
def execInt32n (s : State) : Result := signedBounded Config.params (signedBound32 s) (bound32 s) s

/-- `INTN` (R129). -/
def execIntn (s : State) : Result := signedPlatform Config.params s

end Sys2Proof.Machine
end

