-- ==== Sys2Proof/Machine/Dispatch.lean ====
section
/-! DEFINITION. One command: each constructor of `Instr` calls its meaning. -/

namespace Sys2Proof.Machine

def exec (i : Instr) (s : State) : Host.Outcome State Fault Refusal :=
  match i with
  | .nop => Sys2Proof.Machine.execNop s
  | .seed cnt => Sys2Proof.Machine.execSeed cnt s
  | .next64 => Sys2Proof.Machine.execNext64 s
  | .uint32 => Sys2Proof.Machine.execUint32 s
  | .int31 => Sys2Proof.Machine.execInt31 s
  | .int63 => Sys2Proof.Machine.execInt63 s
  | .int => Sys2Proof.Machine.execInt s
  | .float64 => Sys2Proof.Machine.execFloat64 s
  | .float32 => Sys2Proof.Machine.execFloat32 s
  | .uint64n => Sys2Proof.Machine.execUint64n s
  | .uint32n => Sys2Proof.Machine.execUint32n s
  | .uintn => Sys2Proof.Machine.execUintn s
  | .int64n => Sys2Proof.Machine.execInt64n s
  | .int32n => Sys2Proof.Machine.execInt32n s
  | .intn => Sys2Proof.Machine.execIntn s
  | .read cnt => Sys2Proof.Machine.execRead cnt s
  | .save => Sys2Proof.Machine.execSave s
  | .restore => Sys2Proof.Machine.execRestore s

end Sys2Proof.Machine
end

