-- ==== Sys2Proof/Machine/Flags.lean ====
section
/-! DEFINITION. The register `STATUS` as the host reads it (10_state.md R32) and the error codes of
60_exceptions.md R200. The block has no condition codes. -/

namespace Sys2Proof.Machine

/-- The codes of R200; `OK` is 0, and 6 to 15 are never produced. -/
def errCode : Option CommandError → BitVec 4
  | none => 0
  | some .invalidArgument => 1
  | some .insufficientData => 2
  | some .illegalCommand => 3
  | some .notSeeded => 4
  | some .cursorRange => 5

/-- `STATUS` (R32): `ERR` in bits [3:0], `SEEDED` in bit 4, `STICKY` in bit 5, the rest 0. -/
def statusWord (s : State) : Word64 :=
  0#58 ++ BitVec.ofBool s.sticky ++ BitVec.ofBool s.seeded ++ errCode s.err

end Sys2Proof.Machine
end

