-- ==== Sys2Proof/Machine/Window.lean ====
section
/-! DEFINITION. The register window: its map (10_state.md R30), which accesses are admitted (20_memory.md
R51, R54, R55), and what a read returns and a write stores, byte by byte (R52, R53, R57). -/

namespace Sys2Proof.Machine

/-- What stands at one byte of the window (R30): byte `k` of a register, a byte of the image buffer, or a
reserved byte. -/
inductive Place where
  | cmd (k : Nat)
  | status (k : Nat)
  | arg0 (k : Nat)
  | arg1 (k : Nat)
  | arg2 (k : Nat)
  | result (k : Nat)
  | imgLen (k : Nat)
  | img (i : Nat)
  | reserved
deriving DecidableEq, Repr

/-- The map of R30. -/
def placeAt (off : Nat) : Place :=
  if off < 0x08 then .cmd off
  else if off < 0x10 then .status (off - 0x08)
  else if off < 0x18 then .arg0 (off - 0x10)
  else if off < 0x20 then .arg1 (off - 0x18)
  else if off < 0x28 then .arg2 (off - 0x20)
  else if off < 0x30 then .result (off - 0x28)
  else if off < 0x38 then .imgLen (off - 0x30)
  else if off < 0x40 then .reserved
  else if off < 0x70 then .img (off - 0x40)
  else .reserved

/-- The byte a place reads as: `CMD[63:32]`, `STATUS[63:6]` and reserved bytes read as 0 (R31, R32, R36). -/
def placeByte (s : State) (p : Place) : Byte :=
  match p with
  | .cmd k => byteOf (s.cmd.setWidth 64) k
  | .status k => byteOf (statusWord s) k
  | .arg0 k => byteOf s.arg0 k
  | .arg1 k => byteOf s.arg1 k
  | .arg2 k => byteOf s.arg2 k
  | .result k => byteOf s.result k
  | .imgLen k => byteOf s.imgLen k
  | .img i => Memory.read s.img i
  | .reserved => 0

/-- A byte stored at a place: `STATUS`, `RESULT` and reserved bytes ignore it (R57). `CMD` is written only as
a whole, by the access that starts a command (R54). -/
def storePlace (s : State) (p : Place) (b : Byte) : State :=
  match p with
  | .cmd _ => s
  | .status _ => s
  | .arg0 k => s.setArg0 (setByte s.arg0 k b)
  | .arg1 k => s.setArg1 (setByte s.arg1 k b)
  | .arg2 k => s.setArg2 (setByte s.arg2 k b)
  | .result _ => s
  | .imgLen k => s.setImgLen (setByte s.imgLen k b)
  | .img i => s.setImg (Memory.write s.img i b)
  | .reserved => s

/-- The byte at offset `off` of the window. -/
def windowByte (s : State) (off : Nat) : Byte := placeByte s (placeAt off)

/-- `b` stored at offset `off` of the window. -/
def storeByte (s : State) (off : Nat) (b : Byte) : State := storePlace s (placeAt off) b

/-- The value a read of `n` bytes at `off` returns, zero-extended (R52). -/
def windowRead (s : State) (off n : Nat) : Word64 :=
  assemble ((List.range n).map fun j => windowByte s (off + j))

/-- The bytes `bs` stored at `off`, `off + 1`, and so on (R52). -/
def windowWrite : State → Nat → List Byte → State
  | s, _, [] => s
  | s, off, b :: bs => windowWrite (storeByte s off b) (off + 1) bs

/-- The number of bytes of a width (R51). -/
def Width.bytes : Width → Nat
  | .b1 => 1
  | .b2 => 2
  | .b4 => 4
  | .b8 => 8

/-- A read is admitted when it lies inside the window and is naturally aligned (R51, R55). -/
def readAdmitted (off : Word64) (n : Width) : Bool :=
  off.toNat + n.bytes ≤ 0x80 && off.toNat % n.bytes = 0

/-- A write is admitted when a read there is and, if it touches `CMD`, it is 4 or 8 bytes at offset 0 (R51,
R54). -/
def writeAdmitted (off : Word64) (n : Width) : Bool :=
  readAdmitted off n && (8 ≤ off.toNat || (off.toNat = 0 && 4 ≤ n.bytes))

/-- The offset of a host address (R50): every address is `P_BASE + off` for exactly one `off` (log 7). -/
def offsetOfAddress (addr : Word64) : Word64 := addr - Config.base

/-- The host address of an offset (R50, R51). -/
def addressOfOffset (off : Word64) : Word64 := Config.base + off

end Sys2Proof.Machine
end

