-- ==== Sys2Proof/Machine/Port.lean ====
section
/-! DEFINITION. The block's port: performing one action of the host or of the platform (20_memory.md R51 to
R67, 70_reset_and_hazards.md R230). -/

namespace Sys2Proof.Machine

/-- A write of the command word `w` (R31, R67): store it in `CMD`, then decode and execute it as one
indivisible step; a word that spells no command raises ILLEGAL_COMMAND (R71, R181). -/
def runCommand (w : Word32) (s : State) : Result :=
  match decode w with
  | .ok i => exec i (s.setCmd w)
  | .error _ => raise .illegalCommand (s.setCmd w)

/-- An access that is not admitted: a bus error response, no state changed, no command executed (R51, R206;
log 5). -/
def refuseAccess (s : State) : Result := .next (s.setResponse (some .busError))

/-- `MemRead(P_BASE + off, n)` (R51, R52, R56). -/
def performRead (off : Word64) (n : Width) (s : State) : Result :=
  if readAdmitted off n then
    .next (s.setResponse (some (.data (windowRead s off.toNat n.bytes))))
  else refuseAccess s

/-- `MemWrite(P_BASE + off, n, v)` (R51, R57); the upper half of an 8-byte write to `CMD` is ignored (R31). -/
def performWrite (off : Word64) (n : Width) (v : Word64) (s : State) : Result :=
  if writeAdmitted off n then
    if off.toNat < 8 then runCommand (v.extractLsb' 0 32) (s.setResponse (some .done))
    else .next ((windowWrite s off.toNat (bytesOf v n.bytes)).setResponse (some .done))
  else refuseAccess s

/-- The platform's reset (R230): every register at its reset value; the actions still waiting outside the
block are not the block's state and stay (log 15). -/
def performReset (s : State) : Result := .next (State.reset.setPending s.pending)

/-- One action. -/
def perform (a : HostAction) (s : State) : Result :=
  match a with
  | .read off n => performRead off n s
  | .write off n v => performWrite off n v s
  | .reset => performReset s

/-- The oldest action that has reached the block is performed (R61); with none waiting the block keeps its
state (R29, R216; log 2). -/
def performNext (s : State) : Result :=
  match s.pending with
  | [] => .next s
  | a :: rest => perform a (s.setPending rest)

/-- The host action that writes a command word to `CMD` (R78). -/
def commandWrite (w : Word32) : HostAction := .write 0 .b4 (w.setWidth 64)

end Sys2Proof.Machine
end

