-- ==== Sys2Proof/Machine/Step.lean ====
section
/-! DEFINITION. The step: one host register access (00_scope.md R2). -/

namespace Sys2Proof.Machine

/-- One step (R2, R61, R67). -/
def step (s : State) : Host.Outcome State Fault Refusal := performNext s

/-- `s` with a 4-byte write of the command word `w` as the action the next step performs (log 3). -/
def State.withFetchWord (s : State) (nbits w : Nat) : State :=
  s.setPending (commandWrite (BitVec.ofNat 32 (w % 2 ^ nbits)) :: s.pending)

end Sys2Proof.Machine
end

