-- ==== Sys2Proof/Safety.lean ====
section
/-! DEFINITION. What claims are stated in: the invariant every step keeps, the cursor's range, a run without
an error, and the engine part of the generator. -/

namespace Sys2Proof.Machine

/-- The invariant of the block. The image buffer is in its canonical form, the model's representation (log 13);
an error reported in `ERR` has set `STICKY` (R203); and before the first `SEED` or `RESTORE` no command has had a
result, so `RESULT` still holds its reset value (R34, R101, R230). -/
def State.Inv (s : State) : Prop :=
  Memory.wf s.img ∧ (s.err ≠ none → s.sticky = true) ∧ (s.seeded = false → s.result = 0)

/-- R207: no command has ended with an error since reset. -/
def State.errorFree (s : State) : Bool := !s.sticky

/-- The cursor is in [0, 8] (R25), where the generator holds a value. -/
def State.cursorInRange (s : State) : Prop := s.seeded = true → cursorLegal s.gen = true

/-- R142, the form `SHIFT`: the unconsumed bytes are the low `RP` bytes of `RV` and the rest of it is 0. -/
def State.pendingBytesLow (s : State) : Prop :=
  s.seeded = true → s.gen.rp.toNat ≤ 8 ∧ s.gen.rv.toNat < 2 ^ (8 * s.gen.rp.toNat)

/-- The action is admitted by the block (R51); a reset is no access and is always taken. -/
def HostAction.admitted : HostAction → Bool
  | .read off n => readAdmitted off n
  | .write off n _ => writeAdmitted off n
  | .reset => true

/-- The action is a write that starts a command (R57). -/
def HostAction.startsCommand : HostAction → Bool
  | .write off n _ => writeAdmitted off n && off.toNat < 8
  | .read _ _ => false
  | .reset => false

/-- The action is a write that executes `RESTORE`. -/
def HostAction.restores : HostAction → Bool
  | .write off n v => writeAdmitted off n && off.toNat < 8 && v.extractLsb' 0 32 == encode .restore
  | .read _ _ => false
  | .reset => false

/-- The engine state `(A, B, C, W)` of R105. -/
def Generator.engine (g : Generator) : Triple × Word64 := ((g.a, g.b, g.c), g.w)

/-- The transition on engine states that R105 speaks of. -/
def engineTransition (e : Triple × Word64) : Triple × Word64 := (Config.mix e.2 e.1, e.2 + 1)

end Sys2Proof.Machine
end

