-- ==== Sys2Proof/Certificates/Slice0/Obligations.lean ====
section
/-! DEFINITION. The statements for the provers, one `def Obligations.<Name> : Prop` each, and the few words
they are said in. Every statement names the rule of spec/ it says. -/

namespace Sys2Proof.Claims

open Sys2Proof.Machine

/-- The state after `raise Error(e)` (R203). -/
def raised (e : CommandError) (s : State) : State := { s with err := some e, sticky := true }

/-- The state after a command that completes with the result `r` and the generator `g`. -/
def answered (r : Word64) (g : Generator) (s : State) : State :=
  { s with gen := g, result := r, err := none }

/-- The generator right after seeding with the registers `t`, before any warm-up (R106). -/
def freshlySeeded (t : Triple) : Generator :=
  { a := t.1, b := t.2.1, c := t.2.2, w := 1, rv := 0, rp := 0 }

/-- The opcodes of R72, each with its legal counts. -/
def opcodeRows : List (Nat × List Nat) :=
  [(0x00, [0]), (0x01, [1, 2, 3]), (0x10, [0]), (0x11, [0]), (0x12, [0]), (0x13, [0]), (0x14, [0]),
   (0x18, [0]), (0x19, [0]), (0x20, [0]), (0x21, [0]), (0x22, [0]), (0x28, [0]), (0x29, [0]), (0x2A, [0]),
   (0x30, [0, 1, 2, 3, 4, 5, 6, 7, 8]), (0x40, [0]), (0x41, [0])]

/-- The word spells a command (R71): `RSV` is 0 and `OP` and `CNT` are those of a row of R72. -/
def spellsCommand (w : Word32) : Prop :=
  w.toNat / 2 ^ 12 = 0 ∧ ∃ row ∈ opcodeRows, row.1 = w.toNat % 2 ^ 8 ∧ w.toNat / 2 ^ 8 % 2 ^ 4 ∈ row.2

/-- The commands that take one raw word or more and give a result, other than `READ`. -/
def drawing : List Instr :=
  [.next64, .uint32, .int31, .int63, .int, .float64, .float32, .uint64n, .uint32n, .uintn, .int64n, .int32n,
   .intn]

/-- The command has a result (R34). -/
def hasResult (i : Instr) : Prop := i ∈ drawing ∨ ∃ c, i = .read c

/-- `Refine(frac, n)` of R121. -/
def refineCondition (r : RefineMode) (frac n : Nat) : Prop :=
  match r with
  | .docLt => frac < n
  | .canonGt => frac > 2 ^ 64 - n

/-- The offsets a host write can change without starting a command (R30, R57). -/
def writable (off : Nat) : Prop :=
  (0x10 ≤ off ∧ off < 0x28) ∨ (0x30 ≤ off ∧ off < 0x38) ∨ (0x40 ≤ off ∧ off < 0x70)

/-- A host that issues `READ` commands one after another: the bytes it collects, in order, and the state at
the end; `none` if one of them ends with an error. -/
def runReads : List (BitVec 4) → State → Option (List Byte × State)
  | [], s => some ([], s)
  | c :: cs, s =>
    match exec (.read c) s with
    | .next t =>
      if t.err = none then
        (runReads cs t).map fun r => (bytesOf t.result c.toNat ++ r.1, r.2)
      else none
    | .fault _ => none
    | .refused _ => none

/-- Two generators that agree but for `RV`, `g` holding the form `SHIFT` and `h` the form `INDEX` of the same
unconsumed bytes (R142). -/
def sameStream (g h : Generator) : Prop :=
  g.a = h.a ∧ g.b = h.b ∧ g.c = h.c ∧ g.w = h.w ∧ g.rp = h.rp ∧ g.rp.toNat ≤ 8 ∧
    (g.rp.toNat ≠ 0 → g.rv = h.rv >>> (8 * (8 - g.rp.toNat)))

end Sys2Proof.Claims

open Sys2Proof Sys2Proof.Machine Sys2Proof.Claims

/-! ### Encoding (30_encoding.md) -/

/-- R73: the word of a command is `CNT * 0x100 + OP`; the rule's example words decode to the commands they
spell, and its counterexamples to none. -/
def Obligations.DecodesTheWordsOfTheSpec : Prop :=
  (∀ i : Instr, i.wf = true → (encode i).toNat = (count i).toNat * 0x100 + (opcode i).toNat) ∧
  decode 0x00000000 = .ok .nop ∧ decode 0x00000101 = .ok (.seed 1) ∧ decode 0x00000301 = .ok (.seed 3) ∧
  decode 0x00000010 = .ok .next64 ∧ decode 0x00000020 = .ok .uint64n ∧ decode 0x00000530 = .ok (.read 5) ∧
  decode 0x00000030 = .ok (.read 0) ∧ decode 0x00000040 = .ok .save ∧ decode 0x00000041 = .ok .restore ∧
  decode 0x00000001 = .error .illegalCount ∧ decode 0x00000930 = .error .illegalCount ∧
  decode 0x00000110 = .error .illegalCount ∧ decode 0x00001010 = .error .reservedBits ∧
  decode 0x000000FF = .error .unknownOpcode

/-- R70 to R72: every well-formed command is decoded from its own word, and every word that decodes is the
word of the well-formed command it gives. -/
def Obligations.DecodeAndEncodeAgree : Prop :=
  (∀ i : Instr, i.wf = true → decode (encode i) = .ok i) ∧
  (∀ (w : Word32) (i : Instr), decode w = .ok i → i.wf = true ∧ encode i = w)

/-- R71: a word passes the three checks exactly when it spells a command, which is then executed; every other
word raises ILLEGAL_COMMAND with no other effect (the word itself stands in `CMD`, R31). -/
def Obligations.DecodingFollowsTheThreeChecks : Prop :=
  ∀ (w : Word32) (s : State),
    (spellsCommand w → ∃ i : Instr, (opcode i).toNat = w.toNat % 2 ^ 8 ∧
      (count i).toNat = w.toNat / 2 ^ 8 % 2 ^ 4 ∧ decode w = .ok i ∧
      runCommand w s = exec i { s with cmd := w }) ∧
    (¬ spellsCommand w → runCommand w s = .next (raised .illegalCommand { s with cmd := w }))

/-- R181, R31, R54: an admitted write to `CMD` (4 or 8 bytes at offset 0) whose low 32 bits spell no command
sets `ERR = 3` and `STICKY = 1` and leaves every other register, the image and the generator as they were (`CMD`
holds the word). The queue and the answer to the host are the model's fields (logs 1 and 4). -/
def Obligations.IllegalWordOnlySetsStatus : Prop :=
  ∀ (s : State) (n : Width) (v : Word64) (rest : List HostAction),
    s.pending = .write 0 n v :: rest → (n = .b4 ∨ n = .b8) → ¬ spellsCommand (v.extractLsb' 0 32) →
    ∃ t, step s = .next t ∧
      t = { s with cmd := v.extractLsb' 0 32, err := some .illegalCommand, sticky := true, pending := rest,
                   response := some .done } ∧
      (statusWord t).toNat % 16 = 3 ∧ (statusWord t).getLsbD 5 = true

/-- R71: a `seed` or `read` whose count is outside the legal set spells no command; the decoder never gives
such a term, and the model executes it as the illegal word it is (log 12). -/
def Obligations.IllFormedTermsRaise : Prop :=
  ∀ (i : Instr) (s : State), i.wf = false →
    (∀ w, decode w ≠ .ok i) ∧ exec i s = .next (raised .illegalCommand s)

/-! ### Running a command (20_memory.md, 70_reset_and_hazards.md) -/

/-- R67, R31: an admitted write to `CMD` (4 or 8 bytes at offset 0) whose low 32 bits decode to `i` executes
`i` in that one step; the step around it takes the action off the queue, answers the host, and stores the word
in `CMD`. -/
def Obligations.StepRunsTheDecodedCommand : Prop :=
  ∀ (s : State) (n : Width) (v : Word64) (rest : List HostAction) (i : Instr),
    s.pending = .write 0 n v :: rest → (n = .b4 ∨ n = .b8) → decode (v.extractLsb' 0 32) = .ok i →
    step s = exec i { s with cmd := v.extractLsb' 0 32, pending := rest, response := some .done }

/-- R29, R216: with no action waiting the block keeps its state. That such a step answers the same state is
the model's choice (log 2). -/
def Obligations.IdleStepKeepsTheState : Prop :=
  ∀ s : State, s.pending = [] → step s = .next s

/-- R230: after reset every interface register reads 0, `SEEDED` is 0 and the generator holds no value, in the
model's reset state and after a reset at any time. That reset is an action of the queue, and that the actions after
it stay, are the model's choices (log 15). -/
def Obligations.ResetLeavesTheValuesOfTheSpec : Prop :=
  (∀ s : State, ∀ rest, s.pending = .reset :: rest →
    ∃ t, step s = .next t ∧ t.pending = rest ∧
      t.cmd = 0 ∧ t.err = none ∧ t.seeded = false ∧ t.sticky = false ∧ statusWord t = 0 ∧ t.arg0 = 0 ∧
      t.arg1 = 0 ∧ t.arg2 = 0 ∧ t.result = 0 ∧ t.imgLen = 0 ∧ (∀ i, Memory.read t.img i = 0) ∧
      t.readGenerator = .error .generatorHoldsNoValue) ∧
  State.reset.cmd = 0 ∧ State.reset.err = none ∧ State.reset.seeded = false ∧ State.reset.sticky = false ∧
  statusWord State.reset = 0 ∧ State.reset.arg0 = 0 ∧ State.reset.arg1 = 0 ∧ State.reset.arg2 = 0 ∧
  State.reset.result = 0 ∧ State.reset.imgLen = 0 ∧ (∀ i, Memory.read State.reset.img i = 0) ∧
  State.reset.readGenerator = .error .generatorHoldsNoValue

/-- R203, R204, R241: no command stops the block, whatever the state, and no access does. Three cases of it are
the model's: a step with an empty queue (log 2), a bus error as a next state (log 5, after R206), and a term of
`Instr` that no word decodes to (log 12). -/
def Obligations.NothingStopsTheBlock : Prop :=
  (∀ (i : Instr) (s : State), ∃ t, exec i s = .next t) ∧ ∀ s : State, ∃ t, step s = .next t

/-- R241: how many engine transitions each command makes. -/
def Obligations.DrawCountsAreBounded : Prop :=
  ∀ (i : Instr) (s t : State), i.wf = true → exec i s = .next t →
    (i = .nop ∨ i = .save → t.gen = s.gen) ∧
    (i = .restore → t.gen = s.gen ∨ t.gen = generatorOf s.img) ∧
    (∀ c, i = .seed c → ∃ r, t.gen = Generator.advance Config.params.warmup (freshlySeeded r)) ∧
    (∀ c, i = .read c → ∃ k ≤ 1, t.gen.engine = (Generator.advance k s.gen).engine) ∧
    (i ∈ [Instr.next64, .uint32, .int31, .int63, .int, .float64, .float32] → t.err = none →
      t.gen = Generator.advance 1 s.gen) ∧
    (i ∈ [Instr.uint64n, .uint32n, .uintn, .int64n, .int32n, .intn] →
      ∃ k ≤ 2, t.gen = Generator.advance k s.gen) ∧
    (i ∈ drawing → t.err ≠ none → t.gen = s.gen)

/-! ### The engine (40_engine.md) -/

/-- R100, R102: one transition gives the sum of one fixed mixing register and the counter, replaces the three
registers by the mix of the old state, adds 1 to the counter modulo 2^64, and leaves `RV` and `RP`. -/
def Obligations.TransitionFollowsTheRule : Prop :=
  ∃ summed : Generator → Word64,
    (summed = Generator.a ∨ summed = Generator.b ∨ summed = Generator.c) ∧
    ∀ g : Generator, g.next.1 = summed g + g.w ∧
      (g.next.2.a, g.next.2.b, g.next.2.c) = Config.mix g.w (g.a, g.b, g.c) ∧
      g.next.2.w.toNat = (g.w.toNat + 1) % 2 ^ 64 ∧ g.next.2.rv = g.rv ∧ g.next.2.rp = g.rp

/-- R105: the transition is a bijection of the 2^256 engine states, and within any 2^64 consecutive
transitions no engine state repeats. -/
def Obligations.PeriodLaw : Prop :=
  Function.Bijective engineTransition ∧
  (∀ g : Generator, g.next.2.engine = engineTransition g.engine) ∧
  ∀ (g : Generator) (i j : Nat), i < j → j < i + 2 ^ 64 →
    (Generator.advance i g).engine ≠ (Generator.advance j g).engine

/-- R106: `SEED` with one, two or three words, in every state; it needs no seeded block and leaves everything
but the generator, `SEEDED` and `ERR`. The counter is `1 + m` after `m` warm-up transitions, and `RV` and `RP`
are 0. -/
def Obligations.SeedCommand : Prop :=
  decode 0x00000101 = .ok (.seed 1) ∧ decode 0x00000201 = .ok (.seed 2) ∧ decode 0x00000301 = .ok (.seed 3) ∧
  (∀ s : State,
    exec (.seed 1) s = .next { s with
      gen := Generator.advance Config.params.warmup (freshlySeeded (Config.seed1 s.arg0)),
      seeded := true, err := none } ∧
    exec (.seed 2) s = .next { s with
      gen := Generator.advance Config.params.warmup (freshlySeeded (Config.seed2 s.arg0 s.arg1)),
      seeded := true, err := none } ∧
    exec (.seed 3) s = .next { s with
      gen := Generator.advance Config.params.warmup (freshlySeeded (Config.seed3 s.arg0 s.arg1 s.arg2)),
      seeded := true, err := none }) ∧
  ∀ (m : Nat) (r : Triple), (Generator.advance m (freshlySeeded r)).w = 1 + BitVec.ofNat 64 m ∧
    (Generator.advance m (freshlySeeded r)).rv = 0 ∧ (Generator.advance m (freshlySeeded r)).rp = 0

/-- R107: the generator after `SEED` depends on the count and the seed words alone. -/
def Obligations.ReseedingLeavesNoTrace : Prop :=
  ∀ (k : BitVec 4) (s s' : State), 1 ≤ k.toNat → k.toNat ≤ 3 → s.arg0 = s'.arg0 →
    (2 ≤ k.toNat → s.arg1 = s'.arg1) → (k.toNat = 3 → s.arg2 = s'.arg2) →
    ∃ t t', exec (.seed k) s = .next t ∧ exec (.seed k) s' = .next t' ∧ t.gen = t'.gen

/-- R108: `NEXT64` on a seeded block gives the raw word of one transition; on an unseeded one it raises. -/
def Obligations.Next64Command : Prop :=
  decode 0x00000010 = .ok .next64 ∧
  ∀ s : State,
    (s.seeded = false → exec .next64 s = .next (raised .notSeeded s)) ∧
    (s.seeded = true → exec .next64 s = .next (answered s.gen.next.1 s.gen.next.2 s))

/-- R101: every command that draws, and `READ` and `SAVE`, raises NOT_SEEDED on an unseeded block. -/
def Obligations.UnseededCommandsRaise : Prop :=
  ∀ (i : Instr) (s : State), i.wf = true → s.seeded = false →
    (i ∈ drawing ∨ (∃ c, i = .read c) ∨ i = .save) → exec i s = .next (raised .notSeeded s)

/-- R26, R230: while `SEEDED = 0` no step reads the generator: whatever the registers hold, the step answers
the host alike and leaves the same state but for them, and a step that seeds leaves the same generator too. -/
def Obligations.UnseededGeneratorIsUnobservable : Prop :=
  ∀ (s : State) (g : Generator) (t : State), s.seeded = false → step s = .next t →
    ∃ t', step { s with gen := g } = .next t' ∧ { t' with gen := t.gen } = t ∧ (t.seeded = true → t' = t)

/-- R109: a command's outcome, its result, the image it writes and the generator after it depend on the
generator, `SEEDED` and the operands alone. -/
def Obligations.CommandsAreDeterminedByTheirOperands : Prop :=
  ∀ (i : Instr) (s s' : State), s.gen = s'.gen → s.seeded = s'.seeded → s.arg0 = s'.arg0 →
    s.arg1 = s'.arg1 → s.arg2 = s'.arg2 → s.imgLen = s'.imgLen → s.img = s'.img →
    ∃ t t', exec i s = .next t ∧ exec i s' = .next t' ∧ t.gen = t'.gen ∧ t.err = t'.err ∧
      t.seeded = t'.seeded ∧ t.imgLen = t'.imgLen ∧ t.img = t'.img ∧
      (hasResult i → t.err = none → t.result = t'.result)

/-! ### The sampler (41_sampler.md) -/

/-- R120, R121, R131: `Sample64(n)` computed over the naturals: one draw and the high half of `n * v1` where
`Refine` is false; else a second draw, and the carry out of `frac + hi2` added. -/
def Obligations.SampleFollowsTheAlgorithm : Prop :=
  ∀ (r : RefineMode) (n : Word64) (g : Generator), 1 ≤ n.toNat →
    let p := n.toNat * g.next.1.toNat
    let frac := p % 2 ^ 64
    (¬ refineCondition r frac n.toNat → (sample64 r n g).1.toNat = p / 2 ^ 64 ∧ (sample64 r n g).2 = g.next.2) ∧
    (refineCondition r frac n.toNat →
      (sample64 r n g).1.toNat = p / 2 ^ 64 +
        (if frac + n.toNat * g.next.2.next.1.toNat / 2 ^ 64 ≥ 2 ^ 64 then 1 else 0) ∧
      (sample64 r n g).2 = g.next.2.next.2)

/-- R122: for every bound, every pair of raw words and either refinement condition the result is at most
`n - 1`. -/
def Obligations.SampleIsBelowTheBound : Prop :=
  ∀ (r : RefineMode) (n v1 v2 : Word64), 1 ≤ n.toNat →
    (if refineNeeded r (lo64 (mul128 n v1)) n then refinedResult n v1 v2
      else hi64 (mul128 n v1)).toNat ≤ n.toNat - 1

/-- R133: under `DOC_LT` and a bound up to 2^63 the result is the high half of `n * v1`, although the second
word is still drawn where `frac < n`; a carry needs a bound of at least 2^63 + 1. -/
def Obligations.DocLtRefinementRarelyCarries : Prop :=
  (∀ (n : Word64) (g : Generator), 1 ≤ n.toNat → n.toNat ≤ 2 ^ 63 →
    (sample64 .docLt n g).1 = hi64 (mul128 n g.next.1) ∧
    (sample64 .docLt n g).2 =
      if (lo64 (mul128 n g.next.1)).toNat < n.toNat then g.next.2.next.2 else g.next.2) ∧
  ∀ n v1 v2 : Word64, (lo64 (mul128 n v1)).toNat < n.toNat →
    (lo64 (mul128 n v1)).toNat + (hi64 (mul128 n v2)).toNat ≥ 2 ^ 64 → 2 ^ 63 + 1 ≤ n.toNat

/-- R123: a zero bound gives 0 after `P_ZERO_N_DRAWS` discarded draws, and any other bound is sampled. -/
def Obligations.ZeroBoundGivesZero : Prop :=
  ∀ (p : Config.Params) (n : Word64) (g : Generator),
    (n = 0 → bounded p n g = (0, Generator.advance p.zeroNDraws.val g)) ∧
    (n ≠ 0 → bounded p n g = sample64 p.refine n g)

/-- R124: `UINT64N` on the unsigned bound `ARG0`; no bound is an error. -/
def Obligations.Uint64nCommand : Prop :=
  decode 0x00000020 = .ok .uint64n ∧
  ∀ s : State,
    (s.seeded = false → exec .uint64n s = .next (raised .notSeeded s)) ∧
    (s.seeded = true → exec .uint64n s =
      .next (answered (bounded Config.params s.arg0 s.gen).1 (bounded Config.params s.arg0 s.gen).2 s)) ∧
    (s.seeded = true → s.arg0 = 0 → exec .uint64n s =
      .next (answered 0 (Generator.advance Config.params.zeroNDraws.val s.gen) s))

/-- R125: `UINT32N` is the 64-bit algorithm on `ARG0[31:0]` zero-extended, and its result is below 2^32. -/
def Obligations.Uint32nCommand : Prop :=
  decode 0x00000021 = .ok .uint32n ∧
  ∀ s : State,
    let n := BitVec.ofNat 64 (s.arg0.toNat % 2 ^ 32)
    (s.seeded = false → exec .uint32n s = .next (raised .notSeeded s)) ∧
    (s.seeded = true → exec .uint32n s =
      .next (answered (bounded Config.params n s.gen).1 (bounded Config.params n s.gen).2 s)) ∧
    (bounded Config.params n s.gen).1.toNat < 2 ^ 32

/-- R126: `UINTN` is `UINT64N` where `P_WORDSIZE = 64`, the configured value, and `UINT32N` where it is 32. -/
def Obligations.UintnCommand : Prop :=
  decode 0x00000022 = .ok .uintn ∧
  (∀ s : State, unsignedPlatform { Config.params with wordSize := .w64 } s = exec .uint64n s ∧
    unsignedPlatform { Config.params with wordSize := .w32 } s = exec .uint32n s ∧
    exec .uintn s = exec .uint64n s) ∧
  ∀ s : State, s.seeded = true → exec .uintn s =
    .next (answered (bounded Config.params s.arg0 s.gen).1 (bounded Config.params s.arg0 s.gen).2 s)

/-- R127: `INT64N` raises INVALID_ARGUMENT for a bound that is not positive as a signed 64-bit value, and
else samples it; the result is below the bound, so it is below 2^63. -/
def Obligations.Int64nCommand : Prop :=
  decode 0x00000028 = .ok .int64n ∧
  ∀ s : State,
    (s.seeded = false → exec .int64n s = .next (raised .notSeeded s)) ∧
    (s.seeded = true → s.arg0 = 0 ∨ 2 ^ 63 ≤ s.arg0.toNat →
      exec .int64n s = .next (raised .invalidArgument s)) ∧
    (s.seeded = true → 0 < s.arg0.toNat → s.arg0.toNat < 2 ^ 63 →
      exec .int64n s = .next (answered (sample64 Config.params.refine s.arg0 s.gen).1
        (sample64 Config.params.refine s.arg0 s.gen).2 s) ∧
      (sample64 Config.params.refine s.arg0 s.gen).1.toNat < s.arg0.toNat)

/-- R128: `INT32N` reads `ARG0[31:0]` as a signed 32-bit bound and ignores the upper half. -/
def Obligations.Int32nCommand : Prop :=
  decode 0x00000029 = .ok .int32n ∧
  ∀ s : State,
    let n := s.arg0.toNat % 2 ^ 32
    (s.seeded = false → exec .int32n s = .next (raised .notSeeded s)) ∧
    (s.seeded = true → n = 0 ∨ 2 ^ 31 ≤ n → exec .int32n s = .next (raised .invalidArgument s)) ∧
    (s.seeded = true → 0 < n → n < 2 ^ 31 →
      exec .int32n s = .next (answered (sample64 Config.params.refine (BitVec.ofNat 64 n) s.gen).1
        (sample64 Config.params.refine (BitVec.ofNat 64 n) s.gen).2 s) ∧
      (sample64 Config.params.refine (BitVec.ofNat 64 n) s.gen).1.toNat < n)

/-- R129: `INTN` is `INT64N` where `P_WORDSIZE = 64`, the configured value, and `INT32N` where it is 32. -/
def Obligations.IntnCommand : Prop :=
  decode 0x0000002A = .ok .intn ∧
  (∀ s : State, signedPlatform { Config.params with wordSize := .w64 } s = exec .int64n s ∧
    signedPlatform { Config.params with wordSize := .w32 } s = exec .int32n s ∧
    exec .intn s = exec .int64n s) ∧
  ∀ s : State, s.seeded = true → 0 < s.arg0.toNat → s.arg0.toNat < 2 ^ 63 →
    exec .intn s = .next (answered (sample64 Config.params.refine s.arg0 s.gen).1
      (sample64 Config.params.refine s.arg0 s.gen).2 s)

/-- R130: for every 32-bit bound `n`, `UINT32N` with `ARG0[31:0] = n` and `UINT64N` with `ARG0 = n` return the
same result and make the same draws. -/
def Obligations.NarrowAndWideAgree : Prop :=
  ∀ (n h : Word32) (s : State),
    ∃ t t', exec .uint32n { s with arg0 := h ++ n } = .next t ∧
      exec .uint64n { s with arg0 := n.setWidth 64 } = .next t' ∧
      t.result = t'.result ∧ t.gen = t'.gen ∧ t.err = t'.err

/-! ### The byte reader (42_byte_reader.md) -/

/-- R140, in closed form: with `n` unconsumed bytes, a read of `L <= n` bytes takes the low `L` bytes of `RV`;
a longer one takes all `n` and the low `L - n` bytes of one new raw word. Under `INDEX` the unconsumed bytes are
the high ones and `RV` is not shifted. -/
def Obligations.ReadCommand : Prop :=
  (∀ c : BitVec 4, c.toNat ≤ 8 → decode (BitVec.ofNat 32 (c.toNat * 0x100 + 0x30)) = .ok (.read c)) ∧
  ∀ (c : BitVec 4) (s : State), c.toNat ≤ 8 →
    let n := s.gen.rp.toNat
    let len := c.toNat
    let g := s.gen
    let v := g.next.1
    (s.seeded = false → exec (.read c) s = .next (raised .notSeeded s)) ∧
    (s.seeded = true → g.rp.toInt < 0 ∨ 8 < g.rp.toInt → exec (.read c) s = .next (raised .cursorRange s)) ∧
    (s.seeded = true → len ≤ n → n ≤ 8 →
      exec (.read c) s = .next (answered (BitVec.ofNat 64 (g.rv.toNat % 2 ^ (8 * len)))
        { g with rv := g.rv >>> (8 * len), rp := BitVec.ofNat 8 (n - len) } s) ∧
      readCommand .index len s =
        .next (answered (BitVec.ofNat 64 (g.rv.toNat / 2 ^ (8 * (8 - n)) % 2 ^ (8 * len)))
          { g with rp := BitVec.ofNat 8 (n - len) } s)) ∧
    (s.seeded = true → n < len →
      exec (.read c) s =
        .next (answered (BitVec.ofNat 64 ((g.rv.toNat % 2 ^ (8 * n) + v.toNat * 2 ^ (8 * n)) % 2 ^ (8 * len)))
          { g.next.2 with rv := v >>> (8 * (len - n)), rp := BitVec.ofNat 8 (8 - (len - n)) } s) ∧
      readCommand .index len s =
        .next (answered (BitVec.ofNat 64
            ((g.rv.toNat / 2 ^ (8 * (8 - n)) + v.toNat * 2 ^ (8 * n)) % 2 ^ (8 * len)))
          { g.next.2 with rv := v, rp := BitVec.ofNat 8 (8 - (len - n)) } s))

/-- R141: on a cursor outside [0, 8] every `READ` raises CURSOR_RANGE, takes no byte and leaves the cursor. -/
def Obligations.BadCursorReadRaises : Prop :=
  ∀ (c : BitVec 4) (s : State), c.toNat ≤ 8 → s.seeded = true → 8 < s.gen.rp.toNat →
    ∃ t, exec (.read c) s = .next t ∧ t = raised .cursorRange s ∧ t.gen = s.gen ∧ t.result = s.result

/-- R25: a step keeps the cursor in [0, 8] unless it restores an image whose byte 40 is outside. A `RESTORE`
with `IMGLEN` below 41 restores nothing (R173). -/
def Obligations.StepKeepsTheCursorInRange : Prop :=
  ∀ s t : State, s.cursorInRange → step s = .next t →
    (∀ a rest, s.pending = a :: rest → a.restores = true → 41 ≤ s.imgLen.toNat →
      (Memory.read s.img 40).toNat ≤ 8) →
    t.cursorInRange

/-- R142: in the configured form `SHIFT`, every step but a `RESTORE` keeps `RV < 2^(8 RP)`. -/
def Obligations.StepKeepsThePendingBytesLow : Prop :=
  ∀ s t : State, s.pendingBytesLow → step s = .next t →
    (∀ a rest, s.pending = a :: rest → a.restores = false) → t.pendingBytesLow

/-- R142: the forms `SHIFT` and `INDEX` emit the same bytes, any number of them, and the generators after them
differ in `RV` alone. -/
def Obligations.ReadFormsEmitTheSameBytes : Prop :=
  ∀ (len : Nat) (g h : Generator), sameStream g h →
    (takeBytes .shift len g).1 = (takeBytes .index len h).1 ∧
    sameStream (takeBytes .shift len g).2 (takeBytes .index len h).2

/-- R143: two sequences of `READ` commands of the same total length, from the same state, collect the same
bytes and leave the same generator. The states after them agree but for `RESULT`, which holds the last
command's bytes, and `ERR`, which an empty sequence does not write. -/
def Obligations.ChunksDoNotMatter : Prop :=
  ∀ (cs ds : List (BitVec 4)) (s : State), s.seeded = true → s.gen.rp.toNat ≤ 8 →
    (∀ c ∈ cs, c.toNat ≤ 8) → (∀ d ∈ ds, d.toNat ≤ 8) →
    (cs.map BitVec.toNat).sum = (ds.map BitVec.toNat).sum →
    ∃ bytes t u, runReads cs s = some (bytes, t) ∧ runReads ds s = some (bytes, u) ∧
      bytes.length = (cs.map BitVec.toNat).sum ∧ t.gen = u.gen ∧
      { t with result := u.result, err := u.err } = u

/-- R38, R144: no command but `READ`, `SEED` and `RESTORE` writes `RV` or `RP`, and the integer, float and
bounded commands do not read them. -/
def Obligations.OtherCommandsLeaveTheByteStream : Prop :=
  (∀ (i : Instr) (s t : State), (∀ c, i ≠ .read c) → (∀ c, i ≠ .seed c) → i ≠ .restore →
    exec i s = .next t → t.gen.rv = s.gen.rv ∧ t.gen.rp = s.gen.rp) ∧
  ∀ i ∈ drawing, ∀ (s t : State) (rv : Word64) (rp : Byte), exec i s = .next t →
    exec i { s with gen := { s.gen with rv := rv, rp := rp } } =
      .next { t with gen := { t.gen with rv := rv, rp := rp } }

/-! ### The converters (43_converters.md) -/

/-- R150: `UINT32` keeps the low 32 bits of one raw word. -/
def Obligations.Uint32Command : Prop :=
  decode 0x00000011 = .ok .uint32 ∧
  ∀ s : State,
    (s.seeded = false → exec .uint32 s = .next (raised .notSeeded s)) ∧
    (s.seeded = true → exec .uint32 s =
      .next (answered (BitVec.ofNat 64 (s.gen.next.1.toNat % 2 ^ 32)) s.gen.next.2 s))

/-- R151: `INT31` keeps the low 31 bits of one raw word. -/
def Obligations.Int31Command : Prop :=
  decode 0x00000012 = .ok .int31 ∧
  ∀ s : State,
    (s.seeded = false → exec .int31 s = .next (raised .notSeeded s)) ∧
    (s.seeded = true → exec .int31 s =
      .next (answered (BitVec.ofNat 64 (s.gen.next.1.toNat % 2 ^ 31)) s.gen.next.2 s))

/-- R152: `INT63` keeps the low 63 bits of one raw word. -/
def Obligations.Int63Command : Prop :=
  decode 0x00000013 = .ok .int63 ∧
  ∀ s : State,
    (s.seeded = false → exec .int63 s = .next (raised .notSeeded s)) ∧
    (s.seeded = true → exec .int63 s =
      .next (answered (BitVec.ofNat 64 (s.gen.next.1.toNat % 2 ^ 63)) s.gen.next.2 s))

/-- R153: `INT` is `INT63` where `P_WORDSIZE = 64`, the configured value, and `INT31` where it is 32. -/
def Obligations.IntCommand : Prop :=
  decode 0x00000014 = .ok .int ∧
  (∀ s : State, convert (intOf .w64) s = exec .int63 s ∧ convert (intOf .w32) s = exec .int31 s ∧
    exec .int s = exec .int63 s) ∧
  ∀ s : State, s.seeded = true → exec .int s =
    .next (answered (BitVec.ofNat 64 (s.gen.next.1.toNat % 2 ^ 63)) s.gen.next.2 s)

/-- R156: `FLOAT64` encodes the low 53 bits of one raw word. -/
def Obligations.Float64Command : Prop :=
  decode 0x00000018 = .ok .float64 ∧
  ∀ s : State,
    (s.seeded = false → exec .float64 s = .next (raised .notSeeded s)) ∧
    (s.seeded = true → exec .float64 s =
      .next (answered (f64bits (BitVec.ofNat 64 (s.gen.next.1.toNat % 2 ^ 53))) s.gen.next.2 s))

/-- R157: `FLOAT32` encodes the low 24 bits of one raw word, the pattern zero-extended. -/
def Obligations.Float32Command : Prop :=
  decode 0x00000019 = .ok .float32 ∧
  ∀ s : State,
    (s.seeded = false → exec .float32 s = .next (raised .notSeeded s)) ∧
    (s.seeded = true → exec .float32 s =
      .next (answered ((f32bits (BitVec.ofNat 64 (s.gen.next.1.toNat % 2 ^ 24))).setWidth 64)
        s.gen.next.2 s))

/-- R155: `F64bits(m)` and `F32bits(m)` are the IEEE 754 patterns of exactly `m * 2^-53` and `m * 2^-24`: sign
0, a normal exponent field `E`, and `(2^52 + F) * 2^(E - 970) = m * 2^52` (for binary32
`(2^23 + F) * 2^(E - 103) = m * 2^23`) for the fraction field `F`. Zero is +0.0. -/
def Obligations.FloatPatternsAreExact : Prop :=
  f64bits 0 = 0 ∧ f32bits 0 = 0 ∧
  (∀ m : Word64, 0 < m.toNat → m.toNat < 2 ^ 53 →
    let b := (f64bits m).toNat
    let e := b / 2 ^ 52
    b < 2 ^ 63 ∧ e = 970 + m.toNat.log2 ∧ 970 ≤ e ∧ e ≤ 1022 ∧
      (2 ^ 52 + b % 2 ^ 52) * 2 ^ (e - 970) = m.toNat * 2 ^ 52) ∧
  (∀ m : Word64, 0 < m.toNat → m.toNat < 2 ^ 24 →
    let b := (f32bits m).toNat
    let e := b / 2 ^ 23
    b < 2 ^ 31 ∧ e = 103 + m.toNat.log2 ∧ 103 ≤ e ∧ e ≤ 126 ∧
      (2 ^ 23 + b % 2 ^ 23) * 2 ^ (e - 103) = m.toNat * 2 ^ 23)

/-- R158: no float result is above the pattern of `1 - 2^-53` or `1 - 2^-24`, so none is 1.0, and none has the
sign bit, so none is a negative zero. -/
def Obligations.FloatsStayBelowOne : Prop :=
  ∀ s : State, s.seeded = true →
    ∃ t u, exec .float64 s = .next t ∧ exec .float32 s = .next u ∧
      t.result.toNat ≤ 0x3FEFFFFFFFFFFFFF ∧ u.result.toNat ≤ 0x3F7FFFFF

/-! ### The codec (44_codec.md) -/

/-- R170, R172: `SAVE` writes the generator into the image byte by byte, zeros bytes 41 to 47, sets `IMGLEN` to
41, and changes nothing else but `ERR`. -/
def Obligations.SaveCommand : Prop :=
  decode 0x00000040 = .ok .save ∧
  ∀ s : State,
    (s.seeded = false → exec .save s = .next (raised .notSeeded s)) ∧
    (s.seeded = true → ∃ m, exec .save s = .next { s with img := m, imgLen := 41, err := none } ∧
      (∀ i < 8, Memory.read m i = byteOf s.gen.a i ∧ Memory.read m (8 + i) = byteOf s.gen.b i ∧
        Memory.read m (16 + i) = byteOf s.gen.c i ∧ Memory.read m (24 + i) = byteOf s.gen.w i ∧
        Memory.read m (32 + i) = byteOf s.gen.rv i) ∧
      Memory.read m 40 = s.gen.rp ∧ (∀ i, 41 ≤ i → i < 48 → Memory.read m i = 0) ∧
      ∀ i, 48 ≤ i → Memory.read m i = Memory.read s.img i)

/-- R171, R173: `RESTORE` raises INSUFFICIENT_DATA for an `IMGLEN` below 41, and else loads the generator from
bytes 0 to 40, every one of them accepted, on a seeded block or not, and changes nothing else but `SEEDED` and
`ERR`. -/
def Obligations.RestoreCommand : Prop :=
  decode 0x00000041 = .ok .restore ∧
  ∀ s : State,
    (s.imgLen.toNat < 41 → exec .restore s = .next (raised .insufficientData s)) ∧
    (41 ≤ s.imgLen.toNat → ∃ g,
      exec .restore s = .next { s with gen := g, seeded := true, err := none } ∧
      (∀ i < 8, byteOf g.a i = Memory.read s.img i ∧ byteOf g.b i = Memory.read s.img (8 + i) ∧
        byteOf g.c i = Memory.read s.img (16 + i) ∧ byteOf g.w i = Memory.read s.img (24 + i) ∧
        byteOf g.rv i = Memory.read s.img (32 + i)) ∧
      g.rp = Memory.read s.img 40)

/-- R174: `SAVE` then `RESTORE` leaves the generator as it was, and `RESTORE` then `SAVE` reproduces bytes 0
to 40 of the image. -/
def Obligations.SaveAndRestoreRoundTrip : Prop :=
  (∀ s : State, s.seeded = true →
    ∃ t u, exec .save s = .next t ∧ exec .restore t = .next u ∧ u.gen = s.gen ∧ u.seeded = true ∧
      u = { s with img := t.img, imgLen := 41, err := none }) ∧
  ∀ s : State, 41 ≤ s.imgLen.toNat →
    ∃ t u, exec .restore s = .next t ∧ exec .save t = .next u ∧
      ∀ i ≤ 40, Memory.read u.img i = Memory.read s.img i

/-! ### Control, errors and frames (10_state.md, 45_control.md, 60_exceptions.md) -/

/-- R180: `NOP` writes `ERR <- 0` and nothing else, seeded or not. -/
def Obligations.NopCommand : Prop :=
  decode 0x00000000 = .ok .nop ∧ ∀ s : State, exec .nop s = .next { s with err := none }

/-- R203: a command that ends with an error has changed `ERR` and `STICKY` and nothing else. -/
def Obligations.RaiseChangesOnlyStatus : Prop :=
  ∀ (i : Instr) (s t : State) (e : CommandError), exec i s = .next t → t.err = some e → t = raised e s

/-- R200, R205: the codes, and which commands raise each error and when; an unseeded block is reported before
the command's own check. `INTN` reads its bound with `P_WORDSIZE = 64` (R129), the configured default of R5
(log 11). -/
def Obligations.ErrorsAreRaisedByTheirCommands : Prop :=
  errCode none = 0 ∧ errCode (some .invalidArgument) = 1 ∧ errCode (some .insufficientData) = 2 ∧
  errCode (some .illegalCommand) = 3 ∧ errCode (some .notSeeded) = 4 ∧ errCode (some .cursorRange) = 5 ∧
  ∀ (i : Instr) (s t : State), i.wf = true → exec i s = .next t →
    (t.err = some .invalidArgument ↔ s.seeded = true ∧
      ((i = .int64n ∧ s.arg0.toInt ≤ 0) ∨ (i = .int32n ∧ (s.arg0.extractLsb' 0 32).toInt ≤ 0) ∨
        (i = .intn ∧ s.arg0.toInt ≤ 0))) ∧
    (t.err = some .insufficientData ↔ i = .restore ∧ s.imgLen.toNat < 41) ∧
    (t.err = some .notSeeded ↔ s.seeded = false ∧ i ≠ .nop ∧ i ≠ .restore ∧ ∀ c, i ≠ .seed c) ∧
    (t.err = some .cursorRange ↔ s.seeded = true ∧ 8 < s.gen.rp.toNat ∧ ∃ c, i = .read c) ∧
    t.err ≠ some .illegalCommand

/-- R32, R231: no step but a reset clears `STICKY` or `SEEDED`. -/
def Obligations.OnlyResetClearsStickyAndSeeded : Prop :=
  ∀ s t : State, step s = .next t → (∀ rest, s.pending ≠ .reset :: rest) →
    (s.sticky = true → t.sticky = true) ∧ (s.seeded = true → t.seeded = true)

/-- R38, the frame of every command: what it leaves. No command writes `CMD` or `ARG0` to `ARG2`, the queue or
the answer to the host; `STICKY` changes only with an error; only `SAVE` writes the image and `IMGLEN`, and of
the image only bytes 0 to 47; only a command with a result writes `RESULT`; only `SEED` and `RESTORE` write
`SEEDED`; `NOP` and `SAVE` leave the generator, and every command but `READ`, `SEED` and `RESTORE` leaves
`RV` and `RP`. -/
def Obligations.FrameOfEveryCommand : Prop :=
  ∀ (i : Instr) (s t : State), exec i s = .next t →
    (t.cmd = s.cmd ∧ t.arg0 = s.arg0 ∧ t.arg1 = s.arg1 ∧ t.arg2 = s.arg2 ∧ t.pending = s.pending ∧
      t.response = s.response) ∧
    (t.err = none → t.sticky = s.sticky) ∧
    (i ≠ .save → t.imgLen = s.imgLen ∧ ∀ j, Memory.read t.img j = Memory.read s.img j) ∧
    (i = .save → ∀ j, 48 ≤ j → Memory.read t.img j = Memory.read s.img j) ∧
    (¬ hasResult i → t.result = s.result) ∧
    ((∀ c, i ≠ .seed c) → i ≠ .restore → t.seeded = s.seeded) ∧
    (i = .nop ∨ i = .save → t.gen = s.gen) ∧
    ((∀ c, i ≠ .read c) → (∀ c, i ≠ .seed c) → i ≠ .restore → t.gen.rv = s.gen.rv ∧ t.gen.rp = s.gen.rp)

/-! ### The register window (10_state.md, 20_memory.md) -/

/-- R30, R32, R36: what an 8-byte read of each register returns, and where each byte of the image stands;
`STATUS` is `ERR + 16 SEEDED + 32 STICKY`, and reserved offsets and bits read 0. -/
def Obligations.WindowHoldsTheRegisters : Prop :=
  ∀ s : State,
    windowRead s 0x00 8 = s.cmd.setWidth 64 ∧ windowRead s 0x08 8 = statusWord s ∧
    (statusWord s).toNat = (errCode s.err).toNat + 16 * s.seeded.toNat + 32 * s.sticky.toNat ∧
    windowRead s 0x10 8 = s.arg0 ∧ windowRead s 0x18 8 = s.arg1 ∧ windowRead s 0x20 8 = s.arg2 ∧
    windowRead s 0x28 8 = s.result ∧ windowRead s 0x30 8 = s.imgLen ∧ windowRead s 0x38 8 = 0 ∧
    windowRead s 0x70 8 = 0 ∧ windowRead s 0x78 8 = 0 ∧
    ∀ i < 48, windowByte s (0x40 + i) = Memory.read s.img i

/-- R52, R56: an admitted read answers the bytes it covers, the lowest offset in bits [7:0], and changes
nothing of the block. The queue and the answer are the model's fields (logs 1 and 4). -/
def Obligations.ReadsReturnBytesAndChangeNothing : Prop :=
  ∀ (s : State) (off : Word64) (n : Width) (rest : List HostAction),
    s.pending = .read off n :: rest → off.toNat + n.bytes ≤ 0x80 → off.toNat % n.bytes = 0 →
    ∃ v, step s = .next { s with pending := rest, response := some (.data v) } ∧
      ∀ j < 8, byteOf v j = if j < n.bytes then windowByte s (off.toNat + j) else 0

/-- R53, R57: an admitted write that does not touch `CMD` changes exactly the writable bytes it covers: every
other byte of the window reads as before, and the generator, which is not in the window, is as it was. That the action
leaves the queue and is answered `done` are the model's choices (logs 1 and 4). -/
def Obligations.WritesChangeTheBytesTheyCover : Prop :=
  ∀ (s : State) (off : Word64) (n : Width) (v : Word64) (rest : List HostAction),
    s.pending = .write off n v :: rest → 8 ≤ off.toNat → off.toNat + n.bytes ≤ 0x80 →
    off.toNat % n.bytes = 0 →
    ∃ t, step s = .next t ∧ t.pending = rest ∧ t.response = some .done ∧ t.gen = s.gen ∧ t.cmd = s.cmd ∧
      t.err = s.err ∧ t.seeded = s.seeded ∧ t.sticky = s.sticky ∧ t.result = s.result ∧
      ∀ o < 0x80,
        ((off.toNat ≤ o ∧ o < off.toNat + n.bytes ∧ writable o) →
          windowByte t o = byteOf v (o - off.toNat)) ∧
        (¬ (off.toNat ≤ o ∧ o < off.toNat + n.bytes ∧ writable o) → windowByte t o = windowByte s o)

/-- R51, R54, R55, R206: an access outside the window, a misaligned one, or a write that touches `CMD` in
another form than 4 or 8 bytes at offset 0, is answered with a bus error, changes no state of the block and
executes no command. That the answer is a next state of the model is the model's choice (log 5). -/
def Obligations.UnadmittedAccessesAreBusErrors : Prop :=
  ∀ (s : State) (off : Word64) (n : Width) (v : Word64) (rest : List HostAction),
    (s.pending = .read off n :: rest → (0x80 < off.toNat + n.bytes ∨ off.toNat % n.bytes ≠ 0) →
      step s = .next { s with pending := rest, response := some .busError }) ∧
    (s.pending = .write off n v :: rest →
      (0x80 < off.toNat + n.bytes ∨ off.toNat % n.bytes ≠ 0 ∨
        (off.toNat < 8 ∧ ¬ (off.toNat = 0 ∧ (n = .b4 ∨ n = .b8)))) →
      step s = .next { s with pending := rest, response := some .busError })

/-- R5, R50, R51: `P_BASE` is a multiple of 128, and every host address is `P_BASE + off` for exactly one
offset, which the model's actions carry (log 7). -/
def Obligations.AddressesAreOffsetsFromTheBase : Prop :=
  Config.base.toNat % 128 = 0 ∧
  (∀ a : Word64, addressOfOffset (offsetOfAddress a) = a) ∧
  ∀ off : Word64, offsetOfAddress (addressOfOffset off) = off

/-! ### Invariants -/

/-- The reset state meets the invariant: no error without `STICKY` and no result before the block is seeded
(R34, R230). Its first conjunct, the canonical form of the image's cell list, is the model's representation (log
13). -/
def Obligations.ResetMeetsTheInvariant : Prop := State.reset.Inv

/-- R34, R101, R203: every step keeps the invariant: no error without `STICKY`, and no result before the block
is seeded. Its first conjunct, the canonical form of the image's cell list, is the model's representation (log
13). -/
def Obligations.StepKeepsTheInvariant : Prop :=
  ∀ s t : State, s.Inv → step s = .next t → t.Inv
end

