-- ==== Sys2Proof/Laws/Bytes.lean ====
section
/-! SUPPORT. Bytes of a word: assembling and taking apart are inverse, and replacing one byte leaves the
others (R6, R52, R53). -/

namespace Sys2Proof.Machine

theorem byteOf_getLsbD (x : Word64) (i j : Nat) : (byteOf x i).getLsbD j = (decide (j < 8) && x.getLsbD (8 * i + j)) := by
  simp [byteOf]

/-- Two words with the same eight bytes are equal. -/
theorem word_ext_bytes {x y : Word64} (h : ∀ i < 8, byteOf x i = byteOf y i) : x = y := by
  apply BitVec.eq_of_getLsbD_eq
  intro j hj
  have hb := congrArg (·.getLsbD (j % 8)) (h (j / 8) (by omega))
  have h8 : j % 8 < 8 := Nat.mod_lt _ (by omega)
  simp only [byteOf_getLsbD, h8, decide_true, Bool.true_and] at hb
  rwa [Nat.div_add_mod] at hb

theorem assemble_getLsbD (l : List Byte) (j : Nat) :
    (assemble l).getLsbD j = (decide (j < 64) && (l.getD (j / 8) 0).getLsbD (j % 8)) := by
  induction l generalizing j with
  | nil => simp [assemble]
  | cons b bs ih =>
    simp only [assemble, BitVec.getLsbD_or, BitVec.getLsbD_shiftLeft, BitVec.getLsbD_setWidth, ih]
    by_cases h8 : j < 8
    · have : j / 8 = 0 := by omega
      have : j % 8 = j := by omega
      simp [*]
    · obtain ⟨k, rfl⟩ : ∃ k, j = k + 8 := ⟨j - 8, by omega⟩
      have e1 : (k + 8) / 8 = k / 8 + 1 := by omega
      have e2 : (k + 8) % 8 = k % 8 := by omega
      by_cases hk : k + 8 < 64
      · have : k < 64 := by omega
        simp [e1, e2, hk, this, h8]
      · simp [hk]

/-- Byte `i` of an assembled word is the list's byte `i`, 0 past the list's end. -/
@[simp] theorem byteOf_assemble (l : List Byte) {i : Nat} (hi : i < 8) : byteOf (assemble l) i = l.getD i 0 := by
  apply BitVec.eq_of_getLsbD_eq
  intro j hj
  have e1 : (8 * i + j) / 8 = i := by omega
  have e2 : (8 * i + j) % 8 = j := by omega
  have h64 : 8 * i + j < 64 := by omega
  rw [byteOf_getLsbD, assemble_getLsbD, e1, e2, decide_eq_true hj, decide_eq_true h64, Bool.true_and, Bool.true_and]

@[simp] theorem bytesOf_length (x : Word64) (n : Nat) : (bytesOf x n).length = n := by simp [bytesOf]

theorem bytesOf_getElem (x : Word64) {n i : Nat} (hi : i < n) :
    (bytesOf x n)[i]'(by simpa using hi) = byteOf x i := by simp [bytesOf]

theorem bytesOf_getD (x : Word64) {n i : Nat} (hi : i < n) : (bytesOf x n).getD i 0 = byteOf x i := by
  simp [bytesOf, hi]

/-- A word is what its bytes assemble to. -/
@[simp] theorem assemble_bytesOf (x : Word64) : assemble (bytesOf x 8) = x :=
  word_ext_bytes fun i hi => by rw [byteOf_assemble _ hi, bytesOf_getD x hi]

/-- What replacing byte `k` leaves at byte `i` (R53). -/
theorem byteOf_setByte (x : Word64) (b : Byte) {k i : Nat} (hk : k < 8) (hi : i < 8) :
    byteOf (setByte x k b) i = if i = k then b else byteOf x i := by
  rw [setByte, byteOf_assemble _ hi]
  by_cases h : i = k
  · subst h; simp [hi]
  · have : (bytesOf x 8)[i]? = some (byteOf x i) := by simp [bytesOf, hi]
    simp [List.getD_eq_getElem?_getD, this, h, Ne.symm h]

end Sys2Proof.Machine
end

