-- ==== Sys2Proof/Laws/Memory.lean ====
section
/-! SUPPORT. The image buffer: a read after a write, and every operation keeps the canonical form (R37). -/

namespace Sys2Proof.Machine

theorem Memory.read_eq_unlisted {m : List Host.Cell} {i : Nat} (h : ∀ x ∈ m, x.1 ≠ i) :
    Memory.read m i = Memory.unlisted := by
  induction m with
  | nil => rfl
  | cons x m ih =>
    rw [Memory.read, if_neg (h x (by simp))]
    exact ih fun y hy => h y (by simp [hy])

theorem Memory.read_filter_ne (m : List Host.Cell) {i j : Nat} (h : j ≠ i) :
    Memory.read (m.filter fun x => x.1 != i) j = Memory.read m j := by
  induction m with
  | nil => rfl
  | cons x m ih =>
    by_cases hx : x.1 = i
    · have hj : x.1 ≠ j := fun e => h (e.symm.trans hx)
      rw [List.filter_cons_of_neg (by simp [hx]), ih, Memory.read, if_neg hj]
    · simp [hx, Memory.read, ih]

theorem Memory.read_insert (i : Nat) (b : Byte) (m : List Host.Cell) (j : Nat) (h : ∀ x ∈ m, x.1 ≠ i) :
    Memory.read (Memory.insert i b m) j = if j = i then b else Memory.read m j := by
  induction m with
  | nil => simp only [Memory.insert, Memory.read, eq_comm]
  | cons x m ih =>
    have ih' := ih fun y hy => h y (by simp [hy])
    have hx : x.1 ≠ i := h x (by simp)
    rw [Memory.insert]
    split
    · simp only [Memory.read, eq_comm]
    · rw [Memory.read, ih', Memory.read]
      by_cases hj : j = i
      · subst hj; simp [hx]
      · simp [hj]

/-- A read after a write gives the byte written, and every other byte as before. It holds of every list of
cells, in the canonical form or not. -/
theorem Memory.read_write (m : List Host.Cell) (i : Nat) (b : Byte) (j : Nat) :
    Memory.read (Memory.write m i b) j = if j = i then b else Memory.read m j := by
  have hf : ∀ x ∈ m.filter fun x => x.1 != i, x.1 ≠ i := by simp
  unfold Memory.write
  by_cases hb : b = Memory.unlisted
  · rw [if_pos hb]
    by_cases hj : j = i
    · rw [if_pos hj, hj, hb, Memory.read_eq_unlisted hf]
    · rw [if_neg hj, Memory.read_filter_ne m hj]
  · rw [if_neg hb, Memory.read_insert _ _ _ _ hf]
    by_cases hj : j = i
    · simp [hj]
    · rw [if_neg hj, if_neg hj, Memory.read_filter_ne m hj]

theorem Memory.mem_insert {i : Nat} {b : Byte} {m : List Host.Cell} {x : Host.Cell} :
    x ∈ Memory.insert i b m ↔ x = (i, b) ∨ x ∈ m := by
  induction m with
  | nil => simp [Memory.insert]
  | cons y m ih =>
    rw [Memory.insert]
    split
    · simp
    · simp only [List.mem_cons, ih]; tauto

theorem Memory.insert_rising {i : Nat} {b : Byte} {m : List Host.Cell}
    (hm : m.Pairwise fun x y => x.1 < y.1) (h : ∀ x ∈ m, x.1 ≠ i) :
    (Memory.insert i b m).Pairwise fun x y => x.1 < y.1 := by
  induction m with
  | nil => simp [Memory.insert]
  | cons x m ih =>
    obtain ⟨hx, hm'⟩ := List.pairwise_cons.mp hm
    rw [Memory.insert]
    split
    · rename_i hlt
      refine List.pairwise_cons.mpr ⟨fun y hy => ?_, hm⟩
      rcases List.mem_cons.mp hy with rfl | hy
      · exact hlt
      · exact Nat.lt_trans hlt (hx y hy)
    · rename_i hge
      refine List.pairwise_cons.mpr ⟨fun y hy => ?_, ih hm' fun y hy => h y (by simp [hy])⟩
      have hne : x.1 ≠ i := h x (by simp)
      rcases Memory.mem_insert.mp hy with rfl | hy
      · simp only; omega
      · exact hx y hy

/-- A write inside the buffer keeps the canonical form. -/
theorem Memory.wf_write {m : List Host.Cell} {i : Nat} (b : Byte) (hi : i < 48) (hm : Memory.wf m) :
    Memory.wf (Memory.write m i b) := by
  obtain ⟨hp, hc⟩ := hm
  have hp' := hp.filter fun x => x.1 != i
  have hc' : ∀ x ∈ m.filter fun x => x.1 != i, x.1 < 48 ∧ x.2 ≠ 0 :=
    fun x hx => hc x (List.mem_of_mem_filter hx)
  unfold Memory.write
  split
  · exact ⟨hp', hc'⟩
  · rename_i hb
    refine ⟨Memory.insert_rising hp' (by simp), fun x hx => ?_⟩
    rcases Memory.mem_insert.mp hx with rfl | hx
    · exact ⟨hi, hb⟩
    · exact hc' x hx

/-- Writing the bytes `bs` at `i` keeps the canonical form when they lie inside the buffer. -/
theorem Memory.wf_writeBytes {m : List Host.Cell} {i : Nat} {bs : List Byte} (h : i + bs.length ≤ 48)
    (hm : Memory.wf m) : Memory.wf (Memory.writeBytes m i bs) := by
  induction bs generalizing m i with
  | nil => exact hm
  | cons b bs ih =>
    simp only [List.length_cons] at h
    exact ih (by omega) (Memory.wf_write b (by omega) hm)

/-- A read after writing the bytes `bs` at `i`. -/
theorem Memory.read_writeBytes (m : List Host.Cell) (i : Nat) (bs : List Byte) (j : Nat) :
    Memory.read (Memory.writeBytes m i bs) j =
      if i ≤ j ∧ j < i + bs.length then bs.getD (j - i) 0 else Memory.read m j := by
  induction bs generalizing m i with
  | nil => rw [Memory.writeBytes, if_neg (by simp)]
  | cons b bs ih =>
    rw [Memory.writeBytes, ih, Memory.read_write]
    by_cases hj : j = i
    · subst hj; simp
    · by_cases h1 : i + 1 ≤ j ∧ j < i + 1 + bs.length
      · have e : j - i = (j - (i + 1)) + 1 := by omega
        rw [if_pos h1, if_pos (by rw [List.length_cons]; omega), e, List.getD_cons_succ]
      · rw [if_neg h1, if_neg hj, if_neg (by rw [List.length_cons]; omega)]

/-- The buffer after reset is in the canonical form. -/
theorem Memory.wf_reset : Memory.wf State.reset.img := by decide

end Sys2Proof.Machine
end

