-- ==== Sys2Proof/Laws/Codec.lean ====
section
/-! SUPPORT. The image: which byte of the generator stands where (R170), in what `SAVE` writes and in what
`RESTORE` reads. -/

namespace Sys2Proof.Machine

theorem getD_bytesOf_append (x : Word64) (l : List Byte) (i : Nat) :
    (bytesOf x 8 ++ l).getD i 0 = if i < 8 then byteOf x i else l.getD (i - 8) 0 := by
  split
  · rename_i h
    rw [List.getD_append _ _ _ _ (by simpa using h), bytesOf_getD x h]
  · rename_i h
    rw [List.getD_append_right _ _ _ _ (by simpa using h), bytesOf_length]

@[simp] theorem imageOf_length (g : Generator) : (imageOf g).length = 48 := by simp [imageOf]

/-- Byte `i` of what `SAVE` writes (R170, R172). -/
theorem imageOf_getD (g : Generator) (i : Nat) :
    (imageOf g).getD i 0 =
      if i < 8 then byteOf g.a i
      else if i - 8 < 8 then byteOf g.b (i - 8)
      else if i - 8 - 8 < 8 then byteOf g.c (i - 8 - 8)
      else if i - 8 - 8 - 8 < 8 then byteOf g.w (i - 8 - 8 - 8)
      else if i - 8 - 8 - 8 - 8 < 8 then byteOf g.rv (i - 8 - 8 - 8 - 8)
      else if i = 40 then g.rp
      else 0 := by
  simp only [imageOf, List.append_assoc, getD_bytesOf_append]
  repeat' split
  all_goals try rfl
  · rename_i h; simp [h]
  · obtain ⟨k, hk⟩ : ∃ k, i - 8 - 8 - 8 - 8 - 8 = k + 1 := ⟨i - 41, by omega⟩
    rw [hk, List.getD_cons_succ, List.getD_eq_getElem?_getD, List.getElem?_replicate]
    split <;> rfl

/-- A byte of the image after `SAVE`. -/
theorem read_savedImage (m : List Host.Cell) (g : Generator) (i : Nat) :
    Memory.read (Memory.writeBytes m 0 (imageOf g)) i =
      if i < 48 then (imageOf g).getD i 0 else Memory.read m i := by
  rw [Memory.read_writeBytes, imageOf_length]; simp

/-- A byte of a register read from the image. -/
theorem byteOf_readBytes (m : List Host.Cell) (k : Nat) {i : Nat} (hi : i < 8) :
    byteOf (assemble (Memory.readBytes m k 8)) i = Memory.read m (k + i) := by
  rw [byteOf_assemble _ hi]; simp [Memory.readBytes, hi]

end Sys2Proof.Machine
end

