-- ==== Sys2Proof/Laws/State.lean ====
section
/-! SUPPORT. One lemma per field per update of the state, so that no later proof unfolds a record update. -/

namespace Sys2Proof.Machine

@[simp] theorem State.setCmd_cmd (s : State) (v : Word32) : (s.setCmd v).cmd = v := rfl
@[simp] theorem State.setCmd_err (s : State) (v : Word32) : (s.setCmd v).err = s.err := rfl
@[simp] theorem State.setCmd_seeded (s : State) (v : Word32) : (s.setCmd v).seeded = s.seeded := rfl
@[simp] theorem State.setCmd_sticky (s : State) (v : Word32) : (s.setCmd v).sticky = s.sticky := rfl
@[simp] theorem State.setCmd_arg0 (s : State) (v : Word32) : (s.setCmd v).arg0 = s.arg0 := rfl
@[simp] theorem State.setCmd_arg1 (s : State) (v : Word32) : (s.setCmd v).arg1 = s.arg1 := rfl
@[simp] theorem State.setCmd_arg2 (s : State) (v : Word32) : (s.setCmd v).arg2 = s.arg2 := rfl
@[simp] theorem State.setCmd_result (s : State) (v : Word32) : (s.setCmd v).result = s.result := rfl
@[simp] theorem State.setCmd_imgLen (s : State) (v : Word32) : (s.setCmd v).imgLen = s.imgLen := rfl
@[simp] theorem State.setCmd_img (s : State) (v : Word32) : (s.setCmd v).img = s.img := rfl
@[simp] theorem State.setCmd_gen (s : State) (v : Word32) : (s.setCmd v).gen = s.gen := rfl
@[simp] theorem State.setCmd_pending (s : State) (v : Word32) : (s.setCmd v).pending = s.pending := rfl
@[simp] theorem State.setCmd_response (s : State) (v : Word32) : (s.setCmd v).response = s.response := rfl

@[simp] theorem State.setErr_cmd (s : State) (v : Option CommandError) : (s.setErr v).cmd = s.cmd := rfl
@[simp] theorem State.setErr_err (s : State) (v : Option CommandError) : (s.setErr v).err = v := rfl
@[simp] theorem State.setErr_seeded (s : State) (v : Option CommandError) : (s.setErr v).seeded = s.seeded := rfl
@[simp] theorem State.setErr_sticky (s : State) (v : Option CommandError) : (s.setErr v).sticky = s.sticky := rfl
@[simp] theorem State.setErr_arg0 (s : State) (v : Option CommandError) : (s.setErr v).arg0 = s.arg0 := rfl
@[simp] theorem State.setErr_arg1 (s : State) (v : Option CommandError) : (s.setErr v).arg1 = s.arg1 := rfl
@[simp] theorem State.setErr_arg2 (s : State) (v : Option CommandError) : (s.setErr v).arg2 = s.arg2 := rfl
@[simp] theorem State.setErr_result (s : State) (v : Option CommandError) : (s.setErr v).result = s.result := rfl
@[simp] theorem State.setErr_imgLen (s : State) (v : Option CommandError) : (s.setErr v).imgLen = s.imgLen := rfl
@[simp] theorem State.setErr_img (s : State) (v : Option CommandError) : (s.setErr v).img = s.img := rfl
@[simp] theorem State.setErr_gen (s : State) (v : Option CommandError) : (s.setErr v).gen = s.gen := rfl
@[simp] theorem State.setErr_pending (s : State) (v : Option CommandError) : (s.setErr v).pending = s.pending := rfl
@[simp] theorem State.setErr_response (s : State) (v : Option CommandError) : (s.setErr v).response = s.response := rfl

@[simp] theorem State.setSeeded_cmd (s : State) (v : Bool) : (s.setSeeded v).cmd = s.cmd := rfl
@[simp] theorem State.setSeeded_err (s : State) (v : Bool) : (s.setSeeded v).err = s.err := rfl
@[simp] theorem State.setSeeded_seeded (s : State) (v : Bool) : (s.setSeeded v).seeded = v := rfl
@[simp] theorem State.setSeeded_sticky (s : State) (v : Bool) : (s.setSeeded v).sticky = s.sticky := rfl
@[simp] theorem State.setSeeded_arg0 (s : State) (v : Bool) : (s.setSeeded v).arg0 = s.arg0 := rfl
@[simp] theorem State.setSeeded_arg1 (s : State) (v : Bool) : (s.setSeeded v).arg1 = s.arg1 := rfl
@[simp] theorem State.setSeeded_arg2 (s : State) (v : Bool) : (s.setSeeded v).arg2 = s.arg2 := rfl
@[simp] theorem State.setSeeded_result (s : State) (v : Bool) : (s.setSeeded v).result = s.result := rfl
@[simp] theorem State.setSeeded_imgLen (s : State) (v : Bool) : (s.setSeeded v).imgLen = s.imgLen := rfl
@[simp] theorem State.setSeeded_img (s : State) (v : Bool) : (s.setSeeded v).img = s.img := rfl
@[simp] theorem State.setSeeded_gen (s : State) (v : Bool) : (s.setSeeded v).gen = s.gen := rfl
@[simp] theorem State.setSeeded_pending (s : State) (v : Bool) : (s.setSeeded v).pending = s.pending := rfl
@[simp] theorem State.setSeeded_response (s : State) (v : Bool) : (s.setSeeded v).response = s.response := rfl

@[simp] theorem State.setSticky_cmd (s : State) (v : Bool) : (s.setSticky v).cmd = s.cmd := rfl
@[simp] theorem State.setSticky_err (s : State) (v : Bool) : (s.setSticky v).err = s.err := rfl
@[simp] theorem State.setSticky_seeded (s : State) (v : Bool) : (s.setSticky v).seeded = s.seeded := rfl
@[simp] theorem State.setSticky_sticky (s : State) (v : Bool) : (s.setSticky v).sticky = v := rfl
@[simp] theorem State.setSticky_arg0 (s : State) (v : Bool) : (s.setSticky v).arg0 = s.arg0 := rfl
@[simp] theorem State.setSticky_arg1 (s : State) (v : Bool) : (s.setSticky v).arg1 = s.arg1 := rfl
@[simp] theorem State.setSticky_arg2 (s : State) (v : Bool) : (s.setSticky v).arg2 = s.arg2 := rfl
@[simp] theorem State.setSticky_result (s : State) (v : Bool) : (s.setSticky v).result = s.result := rfl
@[simp] theorem State.setSticky_imgLen (s : State) (v : Bool) : (s.setSticky v).imgLen = s.imgLen := rfl
@[simp] theorem State.setSticky_img (s : State) (v : Bool) : (s.setSticky v).img = s.img := rfl
@[simp] theorem State.setSticky_gen (s : State) (v : Bool) : (s.setSticky v).gen = s.gen := rfl
@[simp] theorem State.setSticky_pending (s : State) (v : Bool) : (s.setSticky v).pending = s.pending := rfl
@[simp] theorem State.setSticky_response (s : State) (v : Bool) : (s.setSticky v).response = s.response := rfl

@[simp] theorem State.setArg0_cmd (s : State) (v : Word64) : (s.setArg0 v).cmd = s.cmd := rfl
@[simp] theorem State.setArg0_err (s : State) (v : Word64) : (s.setArg0 v).err = s.err := rfl
@[simp] theorem State.setArg0_seeded (s : State) (v : Word64) : (s.setArg0 v).seeded = s.seeded := rfl
@[simp] theorem State.setArg0_sticky (s : State) (v : Word64) : (s.setArg0 v).sticky = s.sticky := rfl
@[simp] theorem State.setArg0_arg0 (s : State) (v : Word64) : (s.setArg0 v).arg0 = v := rfl
@[simp] theorem State.setArg0_arg1 (s : State) (v : Word64) : (s.setArg0 v).arg1 = s.arg1 := rfl
@[simp] theorem State.setArg0_arg2 (s : State) (v : Word64) : (s.setArg0 v).arg2 = s.arg2 := rfl
@[simp] theorem State.setArg0_result (s : State) (v : Word64) : (s.setArg0 v).result = s.result := rfl
@[simp] theorem State.setArg0_imgLen (s : State) (v : Word64) : (s.setArg0 v).imgLen = s.imgLen := rfl
@[simp] theorem State.setArg0_img (s : State) (v : Word64) : (s.setArg0 v).img = s.img := rfl
@[simp] theorem State.setArg0_gen (s : State) (v : Word64) : (s.setArg0 v).gen = s.gen := rfl
@[simp] theorem State.setArg0_pending (s : State) (v : Word64) : (s.setArg0 v).pending = s.pending := rfl
@[simp] theorem State.setArg0_response (s : State) (v : Word64) : (s.setArg0 v).response = s.response := rfl

@[simp] theorem State.setArg1_cmd (s : State) (v : Word64) : (s.setArg1 v).cmd = s.cmd := rfl
@[simp] theorem State.setArg1_err (s : State) (v : Word64) : (s.setArg1 v).err = s.err := rfl
@[simp] theorem State.setArg1_seeded (s : State) (v : Word64) : (s.setArg1 v).seeded = s.seeded := rfl
@[simp] theorem State.setArg1_sticky (s : State) (v : Word64) : (s.setArg1 v).sticky = s.sticky := rfl
@[simp] theorem State.setArg1_arg0 (s : State) (v : Word64) : (s.setArg1 v).arg0 = s.arg0 := rfl
@[simp] theorem State.setArg1_arg1 (s : State) (v : Word64) : (s.setArg1 v).arg1 = v := rfl
@[simp] theorem State.setArg1_arg2 (s : State) (v : Word64) : (s.setArg1 v).arg2 = s.arg2 := rfl
@[simp] theorem State.setArg1_result (s : State) (v : Word64) : (s.setArg1 v).result = s.result := rfl
@[simp] theorem State.setArg1_imgLen (s : State) (v : Word64) : (s.setArg1 v).imgLen = s.imgLen := rfl
@[simp] theorem State.setArg1_img (s : State) (v : Word64) : (s.setArg1 v).img = s.img := rfl
@[simp] theorem State.setArg1_gen (s : State) (v : Word64) : (s.setArg1 v).gen = s.gen := rfl
@[simp] theorem State.setArg1_pending (s : State) (v : Word64) : (s.setArg1 v).pending = s.pending := rfl
@[simp] theorem State.setArg1_response (s : State) (v : Word64) : (s.setArg1 v).response = s.response := rfl

@[simp] theorem State.setArg2_cmd (s : State) (v : Word64) : (s.setArg2 v).cmd = s.cmd := rfl
@[simp] theorem State.setArg2_err (s : State) (v : Word64) : (s.setArg2 v).err = s.err := rfl
@[simp] theorem State.setArg2_seeded (s : State) (v : Word64) : (s.setArg2 v).seeded = s.seeded := rfl
@[simp] theorem State.setArg2_sticky (s : State) (v : Word64) : (s.setArg2 v).sticky = s.sticky := rfl
@[simp] theorem State.setArg2_arg0 (s : State) (v : Word64) : (s.setArg2 v).arg0 = s.arg0 := rfl
@[simp] theorem State.setArg2_arg1 (s : State) (v : Word64) : (s.setArg2 v).arg1 = s.arg1 := rfl
@[simp] theorem State.setArg2_arg2 (s : State) (v : Word64) : (s.setArg2 v).arg2 = v := rfl
@[simp] theorem State.setArg2_result (s : State) (v : Word64) : (s.setArg2 v).result = s.result := rfl
@[simp] theorem State.setArg2_imgLen (s : State) (v : Word64) : (s.setArg2 v).imgLen = s.imgLen := rfl
@[simp] theorem State.setArg2_img (s : State) (v : Word64) : (s.setArg2 v).img = s.img := rfl
@[simp] theorem State.setArg2_gen (s : State) (v : Word64) : (s.setArg2 v).gen = s.gen := rfl
@[simp] theorem State.setArg2_pending (s : State) (v : Word64) : (s.setArg2 v).pending = s.pending := rfl
@[simp] theorem State.setArg2_response (s : State) (v : Word64) : (s.setArg2 v).response = s.response := rfl

@[simp] theorem State.setResult_cmd (s : State) (v : Word64) : (s.setResult v).cmd = s.cmd := rfl
@[simp] theorem State.setResult_err (s : State) (v : Word64) : (s.setResult v).err = s.err := rfl
@[simp] theorem State.setResult_seeded (s : State) (v : Word64) : (s.setResult v).seeded = s.seeded := rfl
@[simp] theorem State.setResult_sticky (s : State) (v : Word64) : (s.setResult v).sticky = s.sticky := rfl
@[simp] theorem State.setResult_arg0 (s : State) (v : Word64) : (s.setResult v).arg0 = s.arg0 := rfl
@[simp] theorem State.setResult_arg1 (s : State) (v : Word64) : (s.setResult v).arg1 = s.arg1 := rfl
@[simp] theorem State.setResult_arg2 (s : State) (v : Word64) : (s.setResult v).arg2 = s.arg2 := rfl
@[simp] theorem State.setResult_result (s : State) (v : Word64) : (s.setResult v).result = v := rfl
@[simp] theorem State.setResult_imgLen (s : State) (v : Word64) : (s.setResult v).imgLen = s.imgLen := rfl
@[simp] theorem State.setResult_img (s : State) (v : Word64) : (s.setResult v).img = s.img := rfl
@[simp] theorem State.setResult_gen (s : State) (v : Word64) : (s.setResult v).gen = s.gen := rfl
@[simp] theorem State.setResult_pending (s : State) (v : Word64) : (s.setResult v).pending = s.pending := rfl
@[simp] theorem State.setResult_response (s : State) (v : Word64) : (s.setResult v).response = s.response := rfl

@[simp] theorem State.setImgLen_cmd (s : State) (v : Word64) : (s.setImgLen v).cmd = s.cmd := rfl
@[simp] theorem State.setImgLen_err (s : State) (v : Word64) : (s.setImgLen v).err = s.err := rfl
@[simp] theorem State.setImgLen_seeded (s : State) (v : Word64) : (s.setImgLen v).seeded = s.seeded := rfl
@[simp] theorem State.setImgLen_sticky (s : State) (v : Word64) : (s.setImgLen v).sticky = s.sticky := rfl
@[simp] theorem State.setImgLen_arg0 (s : State) (v : Word64) : (s.setImgLen v).arg0 = s.arg0 := rfl
@[simp] theorem State.setImgLen_arg1 (s : State) (v : Word64) : (s.setImgLen v).arg1 = s.arg1 := rfl
@[simp] theorem State.setImgLen_arg2 (s : State) (v : Word64) : (s.setImgLen v).arg2 = s.arg2 := rfl
@[simp] theorem State.setImgLen_result (s : State) (v : Word64) : (s.setImgLen v).result = s.result := rfl
@[simp] theorem State.setImgLen_imgLen (s : State) (v : Word64) : (s.setImgLen v).imgLen = v := rfl
@[simp] theorem State.setImgLen_img (s : State) (v : Word64) : (s.setImgLen v).img = s.img := rfl
@[simp] theorem State.setImgLen_gen (s : State) (v : Word64) : (s.setImgLen v).gen = s.gen := rfl
@[simp] theorem State.setImgLen_pending (s : State) (v : Word64) : (s.setImgLen v).pending = s.pending := rfl
@[simp] theorem State.setImgLen_response (s : State) (v : Word64) : (s.setImgLen v).response = s.response := rfl

@[simp] theorem State.setImg_cmd (s : State) (v : List Host.Cell) : (s.setImg v).cmd = s.cmd := rfl
@[simp] theorem State.setImg_err (s : State) (v : List Host.Cell) : (s.setImg v).err = s.err := rfl
@[simp] theorem State.setImg_seeded (s : State) (v : List Host.Cell) : (s.setImg v).seeded = s.seeded := rfl
@[simp] theorem State.setImg_sticky (s : State) (v : List Host.Cell) : (s.setImg v).sticky = s.sticky := rfl
@[simp] theorem State.setImg_arg0 (s : State) (v : List Host.Cell) : (s.setImg v).arg0 = s.arg0 := rfl
@[simp] theorem State.setImg_arg1 (s : State) (v : List Host.Cell) : (s.setImg v).arg1 = s.arg1 := rfl
@[simp] theorem State.setImg_arg2 (s : State) (v : List Host.Cell) : (s.setImg v).arg2 = s.arg2 := rfl
@[simp] theorem State.setImg_result (s : State) (v : List Host.Cell) : (s.setImg v).result = s.result := rfl
@[simp] theorem State.setImg_imgLen (s : State) (v : List Host.Cell) : (s.setImg v).imgLen = s.imgLen := rfl
@[simp] theorem State.setImg_img (s : State) (v : List Host.Cell) : (s.setImg v).img = v := rfl
@[simp] theorem State.setImg_gen (s : State) (v : List Host.Cell) : (s.setImg v).gen = s.gen := rfl
@[simp] theorem State.setImg_pending (s : State) (v : List Host.Cell) : (s.setImg v).pending = s.pending := rfl
@[simp] theorem State.setImg_response (s : State) (v : List Host.Cell) : (s.setImg v).response = s.response := rfl

@[simp] theorem State.setGen_cmd (s : State) (v : Generator) : (s.setGen v).cmd = s.cmd := rfl
@[simp] theorem State.setGen_err (s : State) (v : Generator) : (s.setGen v).err = s.err := rfl
@[simp] theorem State.setGen_seeded (s : State) (v : Generator) : (s.setGen v).seeded = s.seeded := rfl
@[simp] theorem State.setGen_sticky (s : State) (v : Generator) : (s.setGen v).sticky = s.sticky := rfl
@[simp] theorem State.setGen_arg0 (s : State) (v : Generator) : (s.setGen v).arg0 = s.arg0 := rfl
@[simp] theorem State.setGen_arg1 (s : State) (v : Generator) : (s.setGen v).arg1 = s.arg1 := rfl
@[simp] theorem State.setGen_arg2 (s : State) (v : Generator) : (s.setGen v).arg2 = s.arg2 := rfl
@[simp] theorem State.setGen_result (s : State) (v : Generator) : (s.setGen v).result = s.result := rfl
@[simp] theorem State.setGen_imgLen (s : State) (v : Generator) : (s.setGen v).imgLen = s.imgLen := rfl
@[simp] theorem State.setGen_img (s : State) (v : Generator) : (s.setGen v).img = s.img := rfl
@[simp] theorem State.setGen_gen (s : State) (v : Generator) : (s.setGen v).gen = v := rfl
@[simp] theorem State.setGen_pending (s : State) (v : Generator) : (s.setGen v).pending = s.pending := rfl
@[simp] theorem State.setGen_response (s : State) (v : Generator) : (s.setGen v).response = s.response := rfl

@[simp] theorem State.setPending_cmd (s : State) (v : List HostAction) : (s.setPending v).cmd = s.cmd := rfl
@[simp] theorem State.setPending_err (s : State) (v : List HostAction) : (s.setPending v).err = s.err := rfl
@[simp] theorem State.setPending_seeded (s : State) (v : List HostAction) : (s.setPending v).seeded = s.seeded := rfl
@[simp] theorem State.setPending_sticky (s : State) (v : List HostAction) : (s.setPending v).sticky = s.sticky := rfl
@[simp] theorem State.setPending_arg0 (s : State) (v : List HostAction) : (s.setPending v).arg0 = s.arg0 := rfl
@[simp] theorem State.setPending_arg1 (s : State) (v : List HostAction) : (s.setPending v).arg1 = s.arg1 := rfl
@[simp] theorem State.setPending_arg2 (s : State) (v : List HostAction) : (s.setPending v).arg2 = s.arg2 := rfl
@[simp] theorem State.setPending_result (s : State) (v : List HostAction) : (s.setPending v).result = s.result := rfl
@[simp] theorem State.setPending_imgLen (s : State) (v : List HostAction) : (s.setPending v).imgLen = s.imgLen := rfl
@[simp] theorem State.setPending_img (s : State) (v : List HostAction) : (s.setPending v).img = s.img := rfl
@[simp] theorem State.setPending_gen (s : State) (v : List HostAction) : (s.setPending v).gen = s.gen := rfl
@[simp] theorem State.setPending_pending (s : State) (v : List HostAction) : (s.setPending v).pending = v := rfl
@[simp] theorem State.setPending_response (s : State) (v : List HostAction) : (s.setPending v).response = s.response := rfl

@[simp] theorem State.setResponse_cmd (s : State) (v : Option BusResponse) : (s.setResponse v).cmd = s.cmd := rfl
@[simp] theorem State.setResponse_err (s : State) (v : Option BusResponse) : (s.setResponse v).err = s.err := rfl
@[simp] theorem State.setResponse_seeded (s : State) (v : Option BusResponse) : (s.setResponse v).seeded = s.seeded := rfl
@[simp] theorem State.setResponse_sticky (s : State) (v : Option BusResponse) : (s.setResponse v).sticky = s.sticky := rfl
@[simp] theorem State.setResponse_arg0 (s : State) (v : Option BusResponse) : (s.setResponse v).arg0 = s.arg0 := rfl
@[simp] theorem State.setResponse_arg1 (s : State) (v : Option BusResponse) : (s.setResponse v).arg1 = s.arg1 := rfl
@[simp] theorem State.setResponse_arg2 (s : State) (v : Option BusResponse) : (s.setResponse v).arg2 = s.arg2 := rfl
@[simp] theorem State.setResponse_result (s : State) (v : Option BusResponse) : (s.setResponse v).result = s.result := rfl
@[simp] theorem State.setResponse_imgLen (s : State) (v : Option BusResponse) : (s.setResponse v).imgLen = s.imgLen := rfl
@[simp] theorem State.setResponse_img (s : State) (v : Option BusResponse) : (s.setResponse v).img = s.img := rfl
@[simp] theorem State.setResponse_gen (s : State) (v : Option BusResponse) : (s.setResponse v).gen = s.gen := rfl
@[simp] theorem State.setResponse_pending (s : State) (v : Option BusResponse) : (s.setResponse v).pending = s.pending := rfl
@[simp] theorem State.setResponse_response (s : State) (v : Option BusResponse) : (s.setResponse v).response = v := rfl

end Sys2Proof.Machine
end

