-- ==== Sys2Proof/Laws/Ops.lean ====
section
/-! SUPPORT. What the shared operations can do: ending a command, the engine transition, and the guarded access
to the generator. -/

namespace Sys2Proof.Machine

theorem raise_eq (e : CommandError) (s : State) :
    raise e s = .next { s with err := some e, sticky := true } := rfl

theorem complete_eq (s : State) : complete s = .next { s with err := none } := rfl

theorem deliver_eq (r : Word64 × Generator) (s : State) :
    deliver r s = .next { s with gen := r.2, result := r.1, err := none } := rfl

/-- A command that reads the generator raises on an unseeded block. -/
theorem withGenerator_unseeded {s : State} (h : s.seeded = false) (k : Generator → Result) :
    withGenerator s k = raise .notSeeded s := by simp [withGenerator, h]

/-- On a seeded block it runs on the generator, and never faults by itself. -/
theorem withGenerator_seeded {s : State} (h : s.seeded = true) (k : Generator → Result) :
    withGenerator s k = k s.gen := by simp [withGenerator, State.readGenerator, h]

@[simp] theorem Generator.next_w (g : Generator) : g.next.2.w = g.w + 1 := rfl
@[simp] theorem Generator.next_rv (g : Generator) : g.next.2.rv = g.rv := rfl
@[simp] theorem Generator.next_rp (g : Generator) : g.next.2.rp = g.rp := rfl

theorem Generator.next_registers (g : Generator) :
    (g.next.2.a, g.next.2.b, g.next.2.c) = Config.mix g.w (g.a, g.b, g.c) := rfl

/-- The transition reads and writes the engine state alone. -/
theorem Generator.next_setStream (g : Generator) (rv : Word64) (rp : Byte) :
    ({ g with rv := rv, rp := rp } : Generator).next = (g.next.1, { g.next.2 with rv := rv, rp := rp }) := rfl

@[simp] theorem Generator.advance_zero (g : Generator) : Generator.advance 0 g = g := rfl

@[simp] theorem Generator.advance_succ (k : Nat) (g : Generator) :
    Generator.advance (k + 1) g = Generator.advance k g.next.2 := rfl

@[simp] theorem Generator.advance_rv (k : Nat) (g : Generator) : (Generator.advance k g).rv = g.rv := by
  induction k generalizing g with
  | zero => rfl
  | succ k ih => rw [Generator.advance_succ, ih, Generator.next_rv]

@[simp] theorem Generator.advance_rp (k : Nat) (g : Generator) : (Generator.advance k g).rp = g.rp := by
  induction k generalizing g with
  | zero => rfl
  | succ k ih => rw [Generator.advance_succ, ih, Generator.next_rp]

/-- The counter counts the transitions, modulo 2^64 (R104). -/
theorem Generator.advance_w (k : Nat) (g : Generator) :
    (Generator.advance k g).w = g.w + BitVec.ofNat 64 k := by
  induction k generalizing g with
  | zero => simp
  | succ k ih =>
    rw [Generator.advance_succ, ih, Generator.next_w, BitVec.add_assoc]
    congr 1
    rw [BitVec.ofNat_add, BitVec.add_comm]
    rfl

end Sys2Proof.Machine
end

