-- ==== Sys2Proof/Laws/Reader.lean ====
section
/-! SUPPORT. The byte reader: one byte at a time, and bytes taken in two goes (R140). -/

namespace Sys2Proof.Machine

@[simp] theorem takeBytes_zero (f : ReadForm) (g : Generator) : takeBytes f 0 g = ([], g) := rfl

theorem takeBytes_succ (f : ReadForm) (k : Nat) (g : Generator) :
    takeBytes f (k + 1) g =
      ((takeByte f g).1 :: (takeBytes f k (takeByte f g).2).1, (takeBytes f k (takeByte f g).2).2) := rfl

@[simp] theorem takeBytes_length (f : ReadForm) (k : Nat) (g : Generator) :
    (takeBytes f k g).1.length = k := by
  induction k generalizing g with
  | zero => rfl
  | succ k ih => simp [takeBytes_succ, ih]

/-- Taking `j` bytes and then `k` is taking `j + k`. -/
theorem takeBytes_add (f : ReadForm) (j k : Nat) (g : Generator) :
    takeBytes f (j + k) g =
      ((takeBytes f j g).1 ++ (takeBytes f k (takeBytes f j g).2).1, (takeBytes f k (takeBytes f j g).2).2) := by
  induction j generalizing g with
  | zero => simp
  | succ j ih => rw [Nat.add_right_comm, takeBytes_succ, takeBytes_succ, ih]; simp

/-- A cursor is legal exactly when its pattern is 0 to 8: 9 to 127 are too large, 128 to 255 negative. -/
theorem cursorLegal_iff (g : Generator) : cursorLegal g = true ↔ g.rp.toNat ≤ 8 := by
  have h := g.rp.isLt
  simp only [cursorLegal, BitVec.toInt_eq_toNat_cond, Bool.and_eq_true, decide_eq_true_eq]
  split <;> omega

/-- One byte leaves the cursor in range, one lower, or at 7 after a refill. -/
theorem takeByte_rp (f : ReadForm) {g : Generator} (h : g.rp.toNat ≤ 8) :
    (takeByte f g).2.rp.toNat = if g.rp.toNat = 0 then 7 else g.rp.toNat - 1 := by
  by_cases h0 : g.rp = 0
  · cases f <;> simp [takeByte, refill, emitByte, h0]
  · have hne : g.rp.toNat ≠ 0 := fun e => h0 (BitVec.eq_of_toNat_eq (by simpa using e))
    rw [if_neg hne]
    have h1 : (1 : Byte).toNat = 1 := rfl
    cases f <;> simp only [takeByte, refill, emitByte, if_neg h0, BitVec.toNat_sub, h1] <;> omega

theorem takeBytes_rp_le (f : ReadForm) (k : Nat) {g : Generator} (h : g.rp.toNat ≤ 8) :
    (takeBytes f k g).2.rp.toNat ≤ 8 := by
  induction k generalizing g with
  | zero => exact h
  | succ k ih =>
    rw [takeBytes_succ]
    refine ih ?_
    rw [takeByte_rp f h]
    split <;> omega

/-- Everything `READ` can do on a seeded block. -/
theorem readCommand_seeded {s : State} (h : s.seeded = true) (f : ReadForm) (len : Nat) :
    readCommand f len s =
      if cursorLegal s.gen = true then
        deliver (assemble (takeBytes f len s.gen).1, (takeBytes f len s.gen).2) s
      else raise .cursorRange s := withGenerator_seeded h _

end Sys2Proof.Machine
end

