-- ==== Sys2Proof/Laws/Sampler.lean ====
section
/-! SUPPORT. The sampler's arithmetic over the naturals (R7, R120), and what the bounded commands can do. -/

namespace Sys2Proof.Machine

theorem mul128_toNat (x y : Word64) : (mul128 x y).toNat = x.toNat * y.toNat := by
  have hx := x.isLt
  have hy := y.isLt
  have hxy : x.toNat * y.toNat < 2 ^ 64 * 2 ^ 64 := Nat.mul_lt_mul'' hx hy
  simp only [mul128, BitVec.toNat_mul, BitVec.toNat_setWidth]
  rw [Nat.mod_eq_of_lt (by omega : x.toNat < 2 ^ 128), Nat.mod_eq_of_lt (by omega : y.toNat < 2 ^ 128),
    Nat.mod_eq_of_lt (by omega)]

/-- The high half of a product (R7). -/
theorem hi64_mul128_toNat (x y : Word64) : (hi64 (mul128 x y)).toNat = x.toNat * y.toNat / 2 ^ 64 := by
  have hx := x.isLt
  have hy := y.isLt
  have hxy : x.toNat * y.toNat < 2 ^ 64 * 2 ^ 64 := Nat.mul_lt_mul'' hx hy
  simp only [hi64, BitVec.extractLsb'_toNat, mul128_toNat, Nat.shiftRight_eq_div_pow]
  exact Nat.mod_eq_of_lt (Nat.div_lt_of_lt_mul (by omega))

/-- The low half of a product (R7). -/
theorem lo64_mul128_toNat (x y : Word64) : (lo64 (mul128 x y)).toNat = x.toNat * y.toNat % 2 ^ 64 := by
  simp [lo64, mul128_toNat]

/-- The carry of R120, over the naturals. -/
theorem carryOut_toNat (x y : Word64) :
    (carryOut x y).toNat = if x.toNat + y.toNat ≥ 2 ^ 64 then 1 else 0 := by
  unfold carryOut; split <;> rfl

/-- Everything an unsigned bounded command can do. -/
theorem unsignedBounded_seeded {s : State} (h : s.seeded = true) (p : Config.Params) (n : Word64) :
    unsignedBounded p n s = deliver (bounded p n s.gen) s := withGenerator_seeded h _

/-- Everything a signed bounded command can do on a seeded block. -/
theorem signedBounded_seeded {s : State} (h : s.seeded = true) (p : Config.Params) (n : Int) (x : Word64) :
    signedBounded p n x s =
      if n ≤ 0 then raise .invalidArgument s else deliver (sample64 p.refine x s.gen) s :=
  withGenerator_seeded h _

/-- The generator after a sample: one transition or two. -/
theorem sample64_gen (r : RefineMode) (n : Word64) (g : Generator) :
    (sample64 r n g).2 = Generator.advance 1 g ∨ (sample64 r n g).2 = Generator.advance 2 g := by
  unfold sample64
  dsimp only
  split
  · exact Or.inr rfl
  · exact Or.inl rfl

end Sys2Proof.Machine
end

