-- ==== Sys2Proof/Laws/Window.lean ====
section
/-! SUPPORT. The register window: what a stored byte leaves at every offset, and that a write keeps the canonical
form of the image (R30, R53, R57). -/

namespace Sys2Proof.Machine

/-- A byte of the window other than `CMD` can be changed by a store there (R57). -/
def Place.writable : Place → Bool
  | .arg0 _ | .arg1 _ | .arg2 _ | .imgLen _ | .img _ => true
  | .cmd _ | .status _ | .result _ | .reserved => false

/-- The byte number inside a register is below 8, and an image index below 48. -/
def Place.inRange : Place → Prop
  | .cmd k | .status k | .arg0 k | .arg1 k | .arg2 k | .result k | .imgLen k => k < 8
  | .img i => i < 48
  | .reserved => True

theorem placeAt_inRange (off : Nat) : (placeAt off).inRange := by
  unfold placeAt
  repeat' split
  all_goals (simp only [Place.inRange]; try omega)

/-- The offset of a place (R30); the reserved ones share a name. -/
def Place.offset : Place → Option Nat
  | .cmd k => some k
  | .status k => some (0x08 + k)
  | .arg0 k => some (0x10 + k)
  | .arg1 k => some (0x18 + k)
  | .arg2 k => some (0x20 + k)
  | .result k => some (0x28 + k)
  | .imgLen k => some (0x30 + k)
  | .img i => some (0x40 + i)
  | .reserved => none

theorem placeAt_offset (off : Nat) : (placeAt off).offset = some off ∨ placeAt off = .reserved := by
  unfold placeAt
  repeat' split
  all_goals (first | exact Or.inr rfl | exact Or.inl rfl | (left; simp only [Place.offset, Option.some.injEq]; omega))

/-- No two offsets of the window name the same byte, reserved ones apart. -/
theorem placeAt_injective {i j : Nat} (h : placeAt i = placeAt j) : i = j ∨ placeAt i = .reserved := by
  rcases placeAt_offset i with hi | hi
  · rcases placeAt_offset j with hj | hj
    · left; rw [h, hj] at hi; exact (Option.some.inj hi).symm
    · right; rw [h, hj]
  · exact Or.inr hi

/-- A stored byte reads back where it can be written, and every other place reads as before. -/
theorem placeByte_storePlace (s : State) {p q : Place} (b : Byte) (hp : p.inRange) (hq : q.inRange) :
    placeByte (storePlace s p b) q = if q = p ∧ p.writable = true then b else placeByte s q := by
  cases p <;> cases q <;>
    simp_all [storePlace, placeByte, Place.writable, Place.inRange, byteOf_setByte, Memory.read_write,
      statusWord]

/-- What a stored byte leaves at every offset of the window. -/
theorem windowByte_storeByte (s : State) (i j : Nat) (b : Byte) :
    windowByte (storeByte s i b) j = if j = i ∧ (placeAt i).writable = true then b else windowByte s j := by
  unfold windowByte storeByte
  rw [placeByte_storePlace s b (placeAt_inRange i) (placeAt_inRange j)]
  by_cases hw : (placeAt i).writable = true
  · by_cases hj : j = i
    · simp [hj, hw]
    · have hne : placeAt j ≠ placeAt i := by
        intro e
        rcases placeAt_injective e with h | h
        · exact hj h
        · rw [← e, h] at hw; simp [Place.writable] at hw
      simp [hj, hne]
  · simp [hw]

/-- What a write of several bytes leaves at every offset of the window (R52, R53). -/
theorem windowByte_windowWrite (s : State) (off : Nat) (bs : List Byte) (j : Nat) :
    windowByte (windowWrite s off bs) j =
      if (off ≤ j ∧ j < off + bs.length) ∧ (placeAt j).writable = true then bs.getD (j - off) 0
      else windowByte s j := by
  induction bs generalizing s off with
  | nil => rw [windowWrite, if_neg (by simp)]
  | cons b bs ih =>
    rw [windowWrite, ih, windowByte_storeByte]
    by_cases hj : j = off
    · subst hj; simp
    · by_cases h1 : (off + 1 ≤ j ∧ j < off + 1 + bs.length) ∧ (placeAt j).writable = true
      · have e : j - off = (j - (off + 1)) + 1 := by omega
        rw [if_pos h1, if_pos ⟨by rw [List.length_cons]; omega, h1.2⟩, e, List.getD_cons_succ]
      · rw [if_neg h1, if_neg (fun h => hj h.1), if_neg]
        rintro ⟨h, hw⟩
        rw [List.length_cons] at h
        exact h1 ⟨by omega, hw⟩

/-- What `windowWrite` never touches. -/
theorem windowWrite_frame (s : State) (off : Nat) (bs : List Byte) :
    (windowWrite s off bs).gen = s.gen ∧ (windowWrite s off bs).cmd = s.cmd ∧
    (windowWrite s off bs).err = s.err ∧ (windowWrite s off bs).seeded = s.seeded ∧
    (windowWrite s off bs).sticky = s.sticky ∧ (windowWrite s off bs).result = s.result ∧
    (windowWrite s off bs).pending = s.pending ∧ (windowWrite s off bs).response = s.response := by
  induction bs generalizing s off with
  | nil => simp [windowWrite]
  | cons b bs ih =>
    have h : ∀ p : Place, (storePlace s p b).gen = s.gen ∧ (storePlace s p b).cmd = s.cmd ∧
        (storePlace s p b).err = s.err ∧ (storePlace s p b).seeded = s.seeded ∧
        (storePlace s p b).sticky = s.sticky ∧ (storePlace s p b).result = s.result ∧
        (storePlace s p b).pending = s.pending ∧ (storePlace s p b).response = s.response := by
      intro p; cases p <;> simp [storePlace]
    obtain ⟨h1, h2, h3, h4, h5, h6, h7, h8⟩ := h (placeAt off)
    rw [windowWrite]
    simpa [storeByte, h1, h2, h3, h4, h5, h6, h7, h8] using ih (storeByte s off b) (off + 1)

/-- A write keeps the image in its canonical form. -/
theorem windowWrite_wf (s : State) (off : Nat) (bs : List Byte) (h : Memory.wf s.img) :
    Memory.wf (windowWrite s off bs).img := by
  induction bs generalizing s off with
  | nil => exact h
  | cons b bs ih =>
    refine ih _ _ ?_
    have hr := placeAt_inRange off
    unfold storeByte
    generalize placeAt off = p at hr
    cases p
    case img i => exact Memory.wf_write b hr h
    all_goals exact h

end Sys2Proof.Machine
end

