-- ==== Sys2Proof/Laws/Exec.lean ====
section
/-! SUPPORT. Everything a command can do, and everything a step can do, said once. -/

namespace Sys2Proof.Machine

/-- The commands that draw from the engine and deliver a result, other than `READ`. -/
def draws : Instr → Bool
  | .next64 | .uint32 | .int31 | .int63 | .int | .float64 | .float32
  | .uint64n | .uint32n | .uintn | .int64n | .int32n | .intn => true
  | .nop | .seed _ | .read _ | .save | .restore => false

/-- What a command can do to the state: raise; complete and do nothing more (`NOP`); deliver a result after at
most two draws from a seeded generator; read; seed; save; restore. -/
inductive CommandOutcome (i : Instr) (s : State) : Prop where
  | raised (e : CommandError) (h : exec i s = raise e s)
  | idle (hi : i = .nop) (h : exec i s = complete s)
  | drawn (hi : draws i = true) (hs : s.seeded = true) (v : Word64) (k : Nat) (hk : k ≤ 2)
      (h : exec i s = deliver (v, Generator.advance k s.gen) s)
  | read (c : BitVec 4) (hi : i = .read c) (hs : s.seeded = true) (hc : c.toNat ≤ 8)
      (hl : cursorLegal s.gen = true)
      (h : exec i s = deliver (assemble (takeBytes Config.params.readForm c.toNat s.gen).1,
        (takeBytes Config.params.readForm c.toNat s.gen).2) s)
  | seeded (c : BitVec 4) (t : Triple) (hi : i = .seed c) (ht : seedTriple c s = some t)
      (h : exec i s = complete ((s.setGen (seededGenerator Config.params.warmup t)).setSeeded true))
  | saved (hi : i = .save) (hs : s.seeded = true)
      (h : exec i s = complete ((s.setImg (Memory.writeBytes s.img 0 (imageOf s.gen))).setImgLen
        (BitVec.ofNat 64 imageLength)))
  | restored (hi : i = .restore) (hl : 41 ≤ s.imgLen.toNat)
      (h : exec i s = complete ((s.setGen (generatorOf s.img)).setSeeded true))

theorem convert_seeded {s : State} (h : s.seeded = true) (f : Word64 → Word64) :
    convert f s = deliver (f s.gen.next.1, s.gen.next.2) s := withGenerator_seeded h _

theorem execNext64_seeded {s : State} (h : s.seeded = true) : execNext64 s = deliver s.gen.next s :=
  withGenerator_seeded h _

theorem execSave_seeded {s : State} (h : s.seeded = true) :
    execSave s = complete ((s.setImg (Memory.writeBytes s.img 0 (imageOf s.gen))).setImgLen
      (BitVec.ofNat 64 imageLength)) := withGenerator_seeded h _

theorem sample64_draws (r : RefineMode) (n : Word64) (g : Generator) :
    ∃ k ≤ 2, (sample64 r n g).2 = Generator.advance k g := by
  rcases sample64_gen r n g with h | h
  · exact ⟨1, by omega, h⟩
  · exact ⟨2, by omega, h⟩

theorem bounded_draws (p : Config.Params) (n : Word64) (g : Generator) :
    ∃ k ≤ 2, (bounded p n g).2 = Generator.advance k g := by
  unfold bounded
  split
  · exact ⟨p.zeroNDraws.val, by omega, rfl⟩
  · exact sample64_draws _ _ _

/-- A command that only draws raises, or delivers a result after at most two draws. -/
theorem draws_outcome {i : Instr} (hi : draws i = true) (s : State) :
    (s.seeded = false ∧ exec i s = raise .notSeeded s) ∨
    (s.seeded = true ∧ ((exec i s = raise .invalidArgument s) ∨
      ∃ v, ∃ k ≤ 2, exec i s = deliver (v, Generator.advance k s.gen) s)) := by
  have one : ∀ f : Word64 → Word64, ∀ x, x = convert f s →
      (s.seeded = false ∧ x = raise .notSeeded s) ∨ (s.seeded = true ∧ ((x = raise .invalidArgument s) ∨
        ∃ v, ∃ k ≤ 2, x = deliver (v, Generator.advance k s.gen) s)) := by
    rintro f x rfl
    cases hs : s.seeded
    · exact Or.inl ⟨rfl, withGenerator_unseeded hs _⟩
    · exact Or.inr ⟨rfl, Or.inr ⟨_, 1, by omega, convert_seeded hs f⟩⟩
  have unsigned : ∀ p n x, x = unsignedBounded p n s →
      (s.seeded = false ∧ x = raise .notSeeded s) ∨ (s.seeded = true ∧ ((x = raise .invalidArgument s) ∨
        ∃ v, ∃ k ≤ 2, x = deliver (v, Generator.advance k s.gen) s)) := by
    rintro p n x rfl
    cases hs : s.seeded
    · exact Or.inl ⟨rfl, withGenerator_unseeded hs _⟩
    · obtain ⟨k, hk, h⟩ := bounded_draws p n s.gen
      exact Or.inr ⟨rfl, Or.inr ⟨_, k, hk, by rw [unsignedBounded_seeded hs, ← h]⟩⟩
  have signed : ∀ p n y x, x = signedBounded p n y s →
      (s.seeded = false ∧ x = raise .notSeeded s) ∨ (s.seeded = true ∧ ((x = raise .invalidArgument s) ∨
        ∃ v, ∃ k ≤ 2, x = deliver (v, Generator.advance k s.gen) s)) := by
    rintro p n y x rfl
    cases hs : s.seeded
    · exact Or.inl ⟨rfl, withGenerator_unseeded hs _⟩
    · rw [signedBounded_seeded hs]
      split
      · exact Or.inr ⟨rfl, Or.inl rfl⟩
      · obtain ⟨k, hk, h⟩ := sample64_draws p.refine y s.gen
        exact Or.inr ⟨rfl, Or.inr ⟨_, k, hk, by rw [← h]⟩⟩
  cases i
  case nop => cases hi
  case seed c => cases hi
  case read c => cases hi
  case save => cases hi
  case restore => cases hi
  case next64 => exact one id _ rfl
  case uint64n => exact unsigned _ _ _ rfl
  case uint32n => exact unsigned _ _ _ rfl
  case uintn => exact unsigned _ _ _ rfl
  case int64n => exact signed _ _ _ _ rfl
  case int32n => exact signed _ _ _ _ rfl
  case intn => exact signed _ _ _ _ rfl
  all_goals exact one _ _ rfl

/-- Everything a command can do. -/
theorem exec_outcome (i : Instr) (s : State) : CommandOutcome i s := by
  by_cases hd : draws i = true
  · rcases draws_outcome hd s with ⟨_, h⟩ | ⟨hs, h | ⟨v, k, hk, h⟩⟩
    · exact .raised _ h
    · exact .raised _ h
    · exact .drawn hd hs v k hk h
  cases i
  case nop => exact .idle rfl rfl
  case seed c =>
    cases ht : seedTriple c s with
    | none => exact .raised .illegalCommand (by simp [exec, execSeed, ht])
    | some t => exact .seeded c t rfl ht (by simp [exec, execSeed, ht])
  case read c =>
    by_cases hc : c.toNat ≤ 8
    · have he : exec (.read c) s = readCommand Config.params.readForm c.toNat s := if_pos hc
      cases hs : s.seeded
      · exact .raised .notSeeded (he.trans (withGenerator_unseeded hs _))
      · rw [readCommand_seeded hs] at he
        by_cases hl : cursorLegal s.gen = true
        · exact .read c rfl hs hc hl (he.trans (if_pos hl))
        · exact .raised .cursorRange (he.trans (if_neg hl))
    · exact .raised .illegalCommand (if_neg hc)
  case save =>
    cases hs : s.seeded
    · exact .raised .notSeeded (withGenerator_unseeded hs _)
    · exact .saved rfl hs (execSave_seeded hs)
  case restore =>
    by_cases hl : s.imgLen.toNat < imageLength
    · exact .raised .insufficientData (by simp [exec, execRestore, hl])
    · exact .restored rfl (Nat.le_of_not_lt hl) (by simp [exec, execRestore, hl])
  all_goals exact absurd rfl hd

/-- What performing one action can do, from the state `s` in which the action has left the queue. -/
inductive ActionOutcome (a : HostAction) (s : State) : Prop where
  | refused (ha : a.admitted = false) (h : perform a s = .next { s with response := some .busError })
  | read (off : Word64) (n : Width) (ha : a = .read off n) (hn : readAdmitted off n = true)
      (h : perform a s = .next { s with response := some (.data (windowRead s off.toNat n.bytes)) })
  | written (off : Word64) (n : Width) (v : Word64) (ha : a = .write off n v)
      (hn : writeAdmitted off n = true) (ho : 8 ≤ off.toNat)
      (h : perform a s =
        .next ((windowWrite s off.toNat (bytesOf v n.bytes)).setResponse (some .done)))
  | illegal (off : Word64) (n : Width) (v : Word64) (e : DecodeError) (ha : a = .write off n v)
      (hn : writeAdmitted off n = true) (ho : off.toNat < 8) (hd : decode (v.extractLsb' 0 32) = .error e)
      (h : perform a s =
        raise .illegalCommand { s with cmd := v.extractLsb' 0 32, response := some .done })
  | command (off : Word64) (n : Width) (v : Word64) (i : Instr) (ha : a = .write off n v)
      (hn : writeAdmitted off n = true) (ho : off.toNat < 8) (hd : decode (v.extractLsb' 0 32) = .ok i)
      (h : perform a s = exec i { s with cmd := v.extractLsb' 0 32, response := some .done })
  | reset (ha : a = .reset) (h : perform a s = .next { State.reset with pending := s.pending })

/-- Everything performing one action can do. -/
theorem perform_outcome (a : HostAction) (s : State) : ActionOutcome a s := by
  cases a with
  | reset => exact .reset rfl rfl
  | read off n =>
    cases hn : readAdmitted off n
    · exact .refused hn (by simp [perform, performRead, hn, refuseAccess, State.setResponse])
    · exact .read off n rfl hn (by simp [perform, performRead, hn, State.setResponse])
  | write off n v =>
    cases hn : writeAdmitted off n
    · exact .refused hn (by simp [perform, performWrite, hn, refuseAccess, State.setResponse])
    · by_cases ho : off.toNat < 8
      · cases hd : decode (v.extractLsb' 0 32) with
        | error e =>
          exact .illegal off n v e rfl hn ho hd
            (by simp [perform, performWrite, hn, ho, runCommand, hd, State.setResponse, State.setCmd])
        | ok i =>
          exact .command off n v i rfl hn ho hd
            (by simp [perform, performWrite, hn, ho, runCommand, hd, State.setResponse, State.setCmd])
      · exact .written off n v rfl hn (Nat.le_of_not_lt ho) (by simp [perform, performWrite, hn, ho])

/-- A step performs the oldest action, or with none waiting keeps the state. -/
theorem step_cases (s : State) :
    (s.pending = [] ∧ step s = .next s) ∨
    ∃ a rest, s.pending = a :: rest ∧ step s = perform a { s with pending := rest } := by
  unfold step performNext
  cases h : s.pending with
  | nil => exact Or.inl ⟨rfl, rfl⟩
  | cons a rest => exact Or.inr ⟨a, rest, rfl, rfl⟩

end Sys2Proof.Machine
end

