-- ==== Sys2Proof/Laws/PerInstr.lean ====
section
/-! SUPPORT. Facts about every instruction as syntax, one lemma per constructor: its word lies under the match
and mask of its row of spec/opcode_table.json. -/

namespace Sys2Proof.Laws.TableRow

/-- The mask of the row: all 32 bits, but for `CNT` where the row leaves it open. -/
def mask : Instr → Word32
  | .seed _ | .read _ => 0xFFFFF0FF
  | .nop | .next64 | .uint32 | .int31 | .int63 | .int | .float64 | .float32
  | .uint64n | .uint32n | .uintn | .int64n | .int32n | .intn | .save | .restore => 0xFFFFFFFF

/-- The match of the row. -/
def pattern : Instr → Word32
  | .nop => 0x00000000
  | .seed _ => 0x00000001
  | .next64 => 0x00000010
  | .uint32 => 0x00000011
  | .int31 => 0x00000012
  | .int63 => 0x00000013
  | .int => 0x00000014
  | .float64 => 0x00000018
  | .float32 => 0x00000019
  | .uint64n => 0x00000020
  | .uint32n => 0x00000021
  | .uintn => 0x00000022
  | .int64n => 0x00000028
  | .int32n => 0x00000029
  | .intn => 0x0000002A
  | .read _ => 0x00000030
  | .save => 0x00000040
  | .restore => 0x00000041

/-- The instruction's word agrees with its row: the fixed bits are the row's, and `CNT` stands in bits
[11:8]. -/
def Statement (i : Instr) : Prop := encode i &&& mask i = pattern i ∧ cntField (encode i) = count i

theorem nop : Statement .nop := by unfold Statement; decide
theorem seed (cnt : BitVec 4) : Statement (.seed cnt) := by revert cnt; unfold Statement; decide
theorem next64 : Statement .next64 := by unfold Statement; decide
theorem uint32 : Statement .uint32 := by unfold Statement; decide
theorem int31 : Statement .int31 := by unfold Statement; decide
theorem int63 : Statement .int63 := by unfold Statement; decide
theorem int : Statement .int := by unfold Statement; decide
theorem float64 : Statement .float64 := by unfold Statement; decide
theorem float32 : Statement .float32 := by unfold Statement; decide
theorem uint64n : Statement .uint64n := by unfold Statement; decide
theorem uint32n : Statement .uint32n := by unfold Statement; decide
theorem uintn : Statement .uintn := by unfold Statement; decide
theorem int64n : Statement .int64n := by unfold Statement; decide
theorem int32n : Statement .int32n := by unfold Statement; decide
theorem intn : Statement .intn := by unfold Statement; decide
theorem read (cnt : BitVec 4) : Statement (.read cnt) := by revert cnt; unfold Statement; decide
theorem save : Statement .save := by unfold Statement; decide
theorem restore : Statement .restore := by unfold Statement; decide

end Sys2Proof.Laws.TableRow
end

