-- ==== Sys2Proof/Tests/Slice0.lean ====
section
/-! SUPPORT. The model's own tests. Every expected value comes from spec/95_test_vectors.md or from the encoding
tables of 30_encoding.md; each theorem names its row. The second half shows, for every statement with
hypotheses, a state and operands that meet them. -/

namespace Sys2Proof.Tests

open Sys2Proof.Machine Sys2Proof.Claims

/-! ### Helpers -/

/-- A generator whose three mixing registers are equal, so that its next word is `x + w` for every
conforming `P_OUT` (95_test_vectors.md E2). -/
def level (x w rv : Word64) (rp : Byte) : Generator := { a := x, b := x, c := x, w := w, rv := rv, rp := rp }

/-- A seeded block with the generator `g` and the operand `x` in `ARG0`, everything else as after reset. -/
def ready (g : Generator) (x : Word64) : State := { State.reset with gen := g, seeded := true, arg0 := x }

/-- An unseeded block with the operand `x` in `ARG0`. -/
def unready (x : Word64) : State := { State.reset with arg0 := x }

/-- The block with one action waiting. -/
def waiting (a : HostAction) (s : State) : State := s.setPending [a]

/-- The generator of row K1. -/
def k1 : Generator where
  a := 0x0706050403020100
  b := 0x0F0E0D0C0B0A0908
  c := 0x1716151413121110
  w := 0x1F1E1D1C1B1A1918
  rv := 0x2120
  rp := 2

/-- The image of row K1 with other bytes in 41 to 47. -/
def paddedK1 : List Host.Cell :=
  Memory.writeBytes (Memory.writeBytes [] 0 (imageOf k1)) 41 [1, 2, 3, 4, 5, 6, 7]

/-- The state a command or a step gives, where it gives one. -/
def after (r : Result) : Option State :=
  match r with
  | .next t => some t
  | .fault _ => none
  | .refused _ => none

theorem level_next (x w rv : Word64) (rp : Byte) : (level x w rv rp).next.1 = x + w := by
  simp only [Generator.next, level, outputWord]
  cases Config.outRegister <;> rfl

/-! ### WellFormed (R72) -/

theorem test_wf_seed_refuses : ∀ c : BitVec 4, (Instr.seed c).wf = decide (c = 1 ∨ c = 2 ∨ c = 3) := by decide
theorem test_wf_seed_zero : (Instr.seed 0).wf = false := by decide
theorem test_wf_seed_four : (Instr.seed 4).wf = false := by decide
theorem test_wf_read_nine : (Instr.read 9).wf = false := by decide
theorem test_wf_read_eight : (Instr.read 8).wf = true := by decide

/-! ### Decoding: words written out as RSV (20 bits), CNT (4 bits), OP (8 bits) (R70, R72) -/

theorem test_decode_nop : decode 0b00000000000000000000_0000_00000000#32 = .ok .nop := by decide
theorem test_decode_seed1 : decode 0b00000000000000000000_0001_00000001#32 = .ok (.seed 1) := by decide
theorem test_decode_seed3 : decode 0b00000000000000000000_0011_00000001#32 = .ok (.seed 3) := by decide
theorem test_decode_next64 : decode 0b00000000000000000000_0000_00010000#32 = .ok .next64 := by decide
theorem test_decode_uint32 : decode 0b00000000000000000000_0000_00010001#32 = .ok .uint32 := by decide
theorem test_decode_int31 : decode 0b00000000000000000000_0000_00010010#32 = .ok .int31 := by decide
theorem test_decode_int63 : decode 0b00000000000000000000_0000_00010011#32 = .ok .int63 := by decide
theorem test_decode_int : decode 0b00000000000000000000_0000_00010100#32 = .ok .int := by decide
theorem test_decode_float64 : decode 0b00000000000000000000_0000_00011000#32 = .ok .float64 := by decide
theorem test_decode_float32 : decode 0b00000000000000000000_0000_00011001#32 = .ok .float32 := by decide
theorem test_decode_uint64n : decode 0b00000000000000000000_0000_00100000#32 = .ok .uint64n := by decide
theorem test_decode_uint32n : decode 0b00000000000000000000_0000_00100001#32 = .ok .uint32n := by decide
theorem test_decode_uintn : decode 0b00000000000000000000_0000_00100010#32 = .ok .uintn := by decide
theorem test_decode_int64n : decode 0b00000000000000000000_0000_00101000#32 = .ok .int64n := by decide
theorem test_decode_int32n : decode 0b00000000000000000000_0000_00101001#32 = .ok .int32n := by decide
theorem test_decode_intn : decode 0b00000000000000000000_0000_00101010#32 = .ok .intn := by decide
theorem test_decode_read5 : decode 0b00000000000000000000_0101_00110000#32 = .ok (.read 5) := by decide
theorem test_decode_save : decode 0b00000000000000000000_0000_01000000#32 = .ok .save := by decide
theorem test_decode_restore : decode 0b00000000000000000000_0000_01000001#32 = .ok .restore := by decide

/-- Section 2.6: words that spell no command, each for its reason. -/
theorem test_decode_illegal :
    decode 0x00000001 = .error .illegalCount ∧ decode 0x00000401 = .error .illegalCount ∧
    decode 0x00000F01 = .error .illegalCount ∧ decode 0x00000930 = .error .illegalCount ∧
    decode 0x00000F30 = .error .illegalCount ∧ decode 0x00000110 = .error .illegalCount ∧
    decode 0x00000120 = .error .illegalCount ∧ decode 0x00000140 = .error .illegalCount ∧
    decode 0x00001010 = .error .reservedBits ∧ decode 0x80000010 = .error .reservedBits ∧
    decode 0xFFFFF010 = .error .reservedBits := by decide

/-- Section 2.6: the ranges of unused opcodes. -/
theorem test_decode_unused_opcodes :
    ∀ n < 256, (2 ≤ n ∧ n ≤ 0x0F) ∨ (0x15 ≤ n ∧ n ≤ 0x17) ∨ (0x1A ≤ n ∧ n ≤ 0x1F) ∨ (0x23 ≤ n ∧ n ≤ 0x27) ∨
      (0x2B ≤ n ∧ n ≤ 0x2F) ∨ (0x31 ≤ n ∧ n ≤ 0x3F) ∨ 0x42 ≤ n →
      decode (BitVec.ofNat 32 n) = .error .unknownOpcode := by decide +kernel

/-- Decoding a table row's bits. -/
theorem test_decodeTableWord :
    decodeTableWord 32 0x0530 = some (.read 5) ∧ decodeTableWord 32 0x0930 = none ∧
    decodeTableWord 8 0x41 = some .restore := by decide

/-- The placed word is what the next step runs. -/
theorem test_withFetchWord : (State.reset.withFetchWord 32 0x41).pending = [.write 0 .b4 0x41] ∧
    after (step (State.reset.withFetchWord 32 0x00)) = some (State.reset.setResponse (some .done)) := by decide

/-! ### Engine (section 2.1) -/

/-- E3: `1 + M` wraps, and so does the counter. -/
theorem test_next64_wraps : ∃ t, exec .next64 (ready (level 1 0xFFFFFFFFFFFFFFFF 0 0) 0) = .next t ∧
    t.result = 0 ∧ t.gen.w = 0 :=
  ⟨_, rfl, level_next _ _ _ _, rfl⟩

/-- E6: after reset, `STATUS = 0x24`. -/
theorem test_next64_unseeded : ∃ t, exec .next64 State.reset = .next t ∧ statusWord t = 0x24 := ⟨_, rfl, rfl⟩

/-- E8, with `P_WARMUP = 0`. -/
theorem test_seed2 (s : State) : ∃ t, exec (.seed 2) s = .next t ∧
    (t.gen.a, t.gen.b, t.gen.c) = Config.seed2 s.arg0 s.arg1 ∧ t.gen.w = 1 ∧ t.gen.rp = 0 ∧ t.seeded = true :=
  ⟨_, rfl, rfl, rfl, rfl, rfl⟩

/-- E11 and X14: a zero seed is legal, and `STICKY` survives it. -/
theorem test_seed_keeps_sticky : ∃ t, exec (.seed 1) { State.reset with sticky := true, err := some .notSeeded } =
    .next t ∧ statusWord t = 0x30 := ⟨_, rfl, rfl⟩

/-! ### Sampler (section 2.2) -/

/-- Q9, Q10, Q11, Q16: `CANON_GT` refines and carries where `DOC_LT` does not refine. -/
theorem test_refine_canon_carries :
    refineNeeded .docLt (lo64 (mul128 3 0x5555555555555555)) 3 = false ∧
    refineNeeded .canonGt (lo64 (mul128 3 0x5555555555555555)) 3 = true ∧ refinedResult 3 0x5555555555555555 0x5555555555555556 = 1 ∧
    refineNeeded .docLt (lo64 (mul128 7 0x2492492492492492)) 7 = false ∧
    refineNeeded .canonGt (lo64 (mul128 7 0x2492492492492492)) 7 = true ∧ refinedResult 7 0x2492492492492492 0xFFFFFFFFFFFFFFFF = 1 ∧
    refineNeeded .docLt (lo64 (mul128 0xFFFFFFFFFFFFFFFF 1)) 0xFFFFFFFFFFFFFFFF = false ∧
    refineNeeded .canonGt (lo64 (mul128 0xFFFFFFFFFFFFFFFF 1)) 0xFFFFFFFFFFFFFFFF = true ∧ refinedResult 0xFFFFFFFFFFFFFFFF 1 5 = 1 ∧
    refineNeeded .docLt (lo64 (mul128 0x8000000000000001 1)) 0x8000000000000001 = false ∧
    refineNeeded .canonGt (lo64 (mul128 0x8000000000000001 1)) 0x8000000000000001 = true ∧ refinedResult 0x8000000000000001 1 0xFFFFFFFFFFFFFFFF = 1 := by decide

/-- Q12 to Q14: both conditions refine at 5, and only `v2 = 7` carries. -/
theorem test_refine_doc :
    refineNeeded .docLt (lo64 (mul128 0xFFFFFFFFFFFFFFFF 5)) 0xFFFFFFFFFFFFFFFF = true ∧
    refineNeeded .canonGt (lo64 (mul128 0xFFFFFFFFFFFFFFFF 5)) 0xFFFFFFFFFFFFFFFF = true ∧
    refinedResult 0xFFFFFFFFFFFFFFFF 5 7 = 5 ∧ refinedResult 0xFFFFFFFFFFFFFFFF 5 5 = 4 ∧
    refineNeeded .canonGt (lo64 (mul128 0xFFFFFFFFFFFFFFFF 0xFFFFFFFFFFFFFFFF)) 0xFFFFFFFFFFFFFFFF = false ∧
    refinedResult 0xFFFFFFFFFFFFFFFF 0xFFFFFFFFFFFFFFFF 0xFFFFFFFFFFFFFFFF = 0xFFFFFFFFFFFFFFFE := by decide

/-- Q5: one draw of the word 1 under the bound 6. -/
theorem test_uint64n_Q5 : ∃ t, exec .uint64n (ready (level 0 1 0 0) 6) = .next t ∧
    t.result = 0 ∧ t.gen.w = 2 := by
  have h : refineNeeded .docLt (lo64 (mul128 6 (level 0 1 0 0).next.1)) 6 = false := by rw [level_next]; decide
  have e : sample64 .docLt 6 (level 0 1 0 0) =
      (hi64 (mul128 6 (level 0 1 0 0).next.1), (level 0 1 0 0).next.2) := by
    rw [sample64]; dsimp only; rw [h]; rfl
  refine ⟨_, rfl, ?_, ?_⟩
  · show (sample64 .docLt 6 (level 0 1 0 0)).1 = 0
    rw [e, level_next]; decide
  · show (sample64 .docLt 6 (level 0 1 0 0)).2.w = 2
    rw [e]; decide

/-- Q21: a zero bound draws nothing and is no error. -/
theorem test_uint64n_zero : ∃ t, exec .uint64n (ready k1 0) = .next t ∧ t.result = 0 ∧ statusWord t = 0x10 ∧
    t.gen = k1 := ⟨_, rfl, rfl, rfl, rfl⟩

/-- Q22: `uint32n` ignores the upper half, so this bound is 0. -/
theorem test_uint32n_zero : ∃ t, exec .uint32n (ready k1 0x100000000) = .next t ∧ t.result = 0 ∧ t.gen = k1 :=
  ⟨_, rfl, rfl, rfl⟩

/-- Q24. -/
theorem test_uintn_zero : ∃ t, exec .uintn (ready k1 0) = .next t ∧ t.result = 0 ∧ t.gen = k1 := ⟨_, rfl, rfl, rfl⟩

/-- Q25 to Q27: a bound that is not positive, no draw, and `RESULT` as it was. -/
theorem test_int64n_not_positive :
    after (exec .int64n (ready k1 0)) = some (raised .invalidArgument (ready k1 0)) ∧
    after (exec .int64n (ready k1 0xFFFFFFFFFFFFFFFB)) = some (raised .invalidArgument (ready k1 0xFFFFFFFFFFFFFFFB)) ∧
    after (exec .int64n (ready k1 0x8000000000000000)) = some (raised .invalidArgument (ready k1 0x8000000000000000)) :=
  ⟨rfl, rfl, rfl⟩

/-- Q35: an unseeded block is reported first. -/
theorem test_int64n_unseeded : ∃ t, exec .int64n State.reset = .next t ∧ statusWord t = 0x24 := ⟨_, rfl, rfl⟩

/-- Q31, Q32: the signed 32-bit bounds `-2^31` and 0. -/
theorem test_int32n_not_positive :
    after (exec .int32n (ready k1 0x80000000)) = some (raised .invalidArgument (ready k1 0x80000000)) ∧
    after (exec .int32n (ready k1 0x100000000)) = some (raised .invalidArgument (ready k1 0x100000000)) :=
  ⟨rfl, rfl⟩

/-- Q30: the bound 5, whatever the upper half. -/
theorem test_int32n_legal : signedBound32 (ready k1 0xFFFFFFFF00000005) = 5 ∧
    bound32 (ready k1 0xFFFFFFFF00000005) = 5 := by decide

/-- Q33 and S8: `Intn(0)` and `Intn(-5)`. -/
theorem test_intn_not_positive :
    after (exec .intn (ready k1 0)) = some (raised .invalidArgument (ready k1 0)) ∧
    after (exec .intn (ready k1 0xFFFFFFFFFFFFFFFB)) = some (raised .invalidArgument (ready k1 0xFFFFFFFFFFFFFFFB)) :=
  ⟨rfl, rfl⟩

/-- Q34: the platform word of 32 bits sees -5. -/
theorem test_intn_w32 :
    after (signedPlatform { Config.params with wordSize := .w32 } (ready k1 0xFFFFFFFB)) =
      some (raised .invalidArgument (ready k1 0xFFFFFFFB)) := by decide

/-! ### Byte reader (section 2.3): `v1 = 0x8877665544332211` -/

/-- B1: three bytes left, two of the next word. -/
theorem test_read_B1 : ∃ t, exec (.read 5) (ready (level 0 0x8877665544332211 0x00CCBBAA 3) 0) = .next t ∧
    t.result = 0x2211CCBBAA ∧ t.gen.rv = 0x887766554433 ∧ t.gen.rp = 6 ∧ t.gen.w = 0x8877665544332212 := by
  have h : (level 0 0x8877665544332211 0 0).next.1 = 0x8877665544332211 := level_next _ _ _ _
  refine ⟨_, rfl, ?_, ?_, by decide, by decide⟩
  · show assemble [0xAA, 0xBB, 0xCC, byteOf (level 0 0x8877665544332211 0 0).next.1 0,
      byteOf ((level 0 0x8877665544332211 0 0).next.1 >>> 8) 0] = _
    rw [h]; decide
  · show (level 0 0x8877665544332211 0 0).next.1 >>> 8 >>> 8 = _
    rw [h]; decide

/-- B2, B3 and B7. -/
theorem test_read_pending :
    takeBytes .index 3 (level 0 0 0xCCBBAA0000000000 3) = ([0xAA, 0xBB, 0xCC], level 0 0 0xCCBBAA0000000000 0) ∧
    takeBytes .shift 8 (level 0 0 0x8877665544332211 8) =
      ([0x11, 0x22, 0x33, 0x44, 0x55, 0x66, 0x77, 0x88], level 0 0 0 0) ∧
    after (exec (.read 0) (ready (level 0 0 0x1122334455 5) 0)) = some (ready (level 0 0 0x1122334455 5) 0) := by decide

/-- B11, B12: a cursor of 9 or of -1. -/
theorem test_read_bad_cursor : ∀ rp ∈ [(0x09 : Byte), 0xFF],
    after (exec (.read 0) (ready (level 0 0 0 rp) 0)) = some (raised .cursorRange (ready (level 0 0 0 rp) 0)) := by decide

/-! ### Converters (section 2.4) -/

/-- The columns `uint32`, `int31` and `int63`. -/
theorem test_low_bits :
    lowBits 32 0x123456789ABCDEF0 = 0x9ABCDEF0 ∧ lowBits 31 0x123456789ABCDEF0 = 0x1ABCDEF0 ∧
    lowBits 63 0x123456789ABCDEF0 = 0x123456789ABCDEF0 ∧
    lowBits 32 0xFFFFFFFFFFFFFFFF = 0xFFFFFFFF ∧ lowBits 31 0xFFFFFFFFFFFFFFFF = 0x7FFFFFFF ∧
    lowBits 63 0xFFFFFFFFFFFFFFFF = 0x7FFFFFFFFFFFFFFF ∧
    lowBits 32 0xFFF0000000000001 = 1 ∧ lowBits 31 0xFFF0000000000001 = 1 ∧
    lowBits 63 0xFFF0000000000001 = 0x7FF0000000000001 ∧
    lowBits 32 0x8000000000000000 = 0 ∧ lowBits 31 0x8000000000000000 = 0 ∧
    lowBits 63 0x8000000000000000 = 0 := by decide

/-- The column `float64`. -/
theorem test_float64 :
    float64Of 0 = 0 ∧ float64Of 1 = 0x3CA0000000000000 ∧ float64Of 0xFFFFFFFFFFFFFFFF = 0x3FEFFFFFFFFFFFFF ∧
    float64Of 0x0010000000000000 = 0x3FE0000000000000 ∧ float64Of 0x0020000000000000 = 0 ∧
    float64Of 0x00FFFFFF = 0x3E1FFFFFE0000000 ∧ float64Of 0x123456789ABCDEF0 = 0x3FE456789ABCDEF0 ∧
    float64Of 0xFFF0000000000001 = 0x3FE0000000000001 := by decide

/-- The column `float32`. -/
theorem test_float32 :
    float32Of 0 = 0 ∧ float32Of 1 = 0x33800000 ∧ float32Of 0xFFFFFFFFFFFFFFFF = 0x3F7FFFFF ∧
    float32Of 0x0010000000000000 = 0 ∧ float32Of 0x123456789ABCDEF0 = 0x3F3CDEF0 ∧
    float32Of 0xFFF0000000000001 = 0x33800000 := by decide

/-- `int` by the platform word. -/
theorem test_int_word : intOf .w64 0xFFFFFFFFFFFFFFFF = 0x7FFFFFFFFFFFFFFF ∧
    intOf .w32 0xFFFFFFFFFFFFFFFF = 0x7FFFFFFF := by decide

/-- The row `v = 0x123456789ABCDEF0` through the commands. -/
theorem test_uint32_command : ∃ t, exec .uint32 (ready (level 0 0x123456789ABCDEF0 0 0) 0) = .next t ∧
    t.result = 0x9ABCDEF0 := by
  refine ⟨_, rfl, ?_⟩
  show lowBits 32 (level 0 0x123456789ABCDEF0 0 0).next.1 = _
  rw [level_next]; decide

/-- The same row, `int31`. -/
theorem test_int31_command : ∃ t, exec .int31 (ready (level 0 0x123456789ABCDEF0 0 0) 0) = .next t ∧
    t.result = 0x1ABCDEF0 := by
  refine ⟨_, rfl, ?_⟩
  show lowBits 31 (level 0 0x123456789ABCDEF0 0 0).next.1 = _
  rw [level_next]; decide

/-- The last row, `int63`. -/
theorem test_int63_command : ∃ t, exec .int63 (ready (level 0 0xFFF0000000000001 0 0) 0) = .next t ∧
    t.result = 0x7FF0000000000001 := by
  refine ⟨_, rfl, ?_⟩
  show lowBits 63 (level 0 0xFFF0000000000001 0 0).next.1 = _
  rw [level_next]; decide

/-- The last row, `int` with the default word of 64 bits. -/
theorem test_int_command : ∃ t, exec .int (ready (level 0 0xFFF0000000000001 0 0) 0) = .next t ∧
    t.result = 0x7FF0000000000001 := by
  refine ⟨_, rfl, ?_⟩
  show lowBits 63 (level 0 0xFFF0000000000001 0 0).next.1 = _
  rw [level_next]; decide

/-- X4. -/
theorem test_float64_unseeded : ∃ t, exec .float64 State.reset = .next t ∧ statusWord t = 0x24 := ⟨_, rfl, rfl⟩

/-! ### Codec (section 2.5) -/

/-- K1: bytes 0 to 33 count up, byte 40 is 2, and the rest is 0. -/
theorem test_save_K1 : ∃ t, exec .save (ready k1 0) = .next t ∧
    (List.range 48).map (Memory.read t.img) =
      (List.range 34).map (BitVec.ofNat 8) ++ List.replicate 6 0 ++ 2 :: List.replicate 7 0 ∧
    t.imgLen = 41 ∧ t.gen = k1 ∧ Memory.wf t.img := by
  refine ⟨_, rfl, by decide, rfl, rfl, by decide⟩

/-- K8. -/
theorem test_save_unseeded : ∃ t, exec .save State.reset = .next t ∧ statusWord t = 0x24 := ⟨_, rfl, rfl⟩

/-- K2 and K5: the image of K1 gives the state of K1, whatever stands in bytes 41 to 47. -/
theorem test_restore_K2 :
    ∃ t, exec .restore { State.reset with imgLen := 0xFFFFFFFFFFFFFFFF, img := paddedK1 } = .next t ∧
      t.gen = k1 ∧ statusWord t = 0x10 := by
  refine ⟨_, rfl, by decide, by decide⟩

/-- K4 and S11: a length below 41. -/
theorem test_restore_short :
    after (exec .restore State.reset) = some (raised .insufficientData State.reset) ∧
    after (exec .restore { State.reset with imgLen := 40, gen := k1, seeded := true }) =
      some (raised .insufficientData { State.reset with imgLen := 40, gen := k1, seeded := true }) := by decide

/-! ### Errors and accesses (section 2.7) -/

/-- X1. -/
theorem test_nop_X1 : ∃ t, exec .nop { ready k1 0 with err := some .invalidArgument, sticky := true } = .next t ∧
    statusWord t = 0x30 := ⟨_, rfl, rfl⟩

/-- X2 and X3. -/
theorem test_illegal_word :
    (∃ t, step (waiting (.write 0 .b4 0xFF) (ready k1 0)) = .next t ∧ statusWord t = 0x33) ∧
    ∃ t, step (waiting (.write 0 .b4 0xFF) State.reset) = .next t ∧ statusWord t = 0x23 :=
  ⟨⟨_, rfl, by decide⟩, ⟨_, rfl, by decide⟩⟩

/-- X6 to X9: the bus errors. -/
theorem test_bus_errors : ∀ a ∈ [HostAction.write 0 .b2 0x10, .write 4 .b4 0, .read 0x0C .b8, .read 0x80 .b8],
    after (step (waiting a (ready k1 0))) = some ((ready k1 0).setResponse (some .busError)) := by decide

/-- X10. -/
theorem test_read_arg0_high : after (step (waiting (.read 0x14 .b4) (ready k1 0x123456789ABCDEF0))) =
    some ((ready k1 0x123456789ABCDEF0).setResponse (some (.data 0x12345678))) := by decide

/-- X11. -/
theorem test_write_image_byte : after (step (waiting (.write 0x42 .b1 0xAB) State.reset)) =
    some { State.reset with img := [(2, 0xAB)], response := some .done } := by decide

/-- X12 and X13. -/
theorem test_ignored_and_reserved :
    after (step (waiting (.write 0x08 .b8 0) (ready k1 1))) = some ((ready k1 1).setResponse (some .done)) ∧
    after (step (waiting (.write 0x28 .b8 0) { State.reset with result := 9 })) =
      some { State.reset with result := 9, response := some .done } ∧
    after (step (waiting (.read 0x38 .b8) (ready k1 1))) = some ((ready k1 1).setResponse (some (.data 0))) := by decide

/-- X15. -/
theorem test_reset : after (step (waiting .reset { ready k1 1 with sticky := true, result := 9 })) =
    some State.reset := by decide

/-! ### Witnesses: a state and operands that meet the hypotheses of each statement -/

/-- A generator with one unconsumed byte. -/
def oneByteLeft : Generator := level 0 0 0xCC 1

theorem witness_DecodesTheWordsOfTheSpec : (Instr.seed 3).wf = true ∧ (Instr.read 0).wf = true := by decide

theorem witness_DecodeAndEncodeAgree : (Instr.read 8).wf = true ∧ decode 0x00000830 = .ok (.read 8) := by decide

theorem witness_DecodingFollowsTheThreeChecks :
    spellsCommand 0x00000301 ∧ spellsCommand 0x00000830 ∧ ¬ spellsCommand 0x00000401 ∧
      ¬ spellsCommand 0x00000930 ∧ ¬ spellsCommand 0x00001010 ∧ ¬ spellsCommand 0x000000FF := by
  unfold spellsCommand; decide

theorem witness_IllegalWordOnlySetsStatus :
    (waiting (.write 0 .b4 0xFF) (ready k1 0)).pending = .write 0 .b4 0xFF :: [] ∧
    (Width.b4 = .b4 ∨ Width.b4 = .b8) ∧ ¬ spellsCommand ((0xFF : Word64).extractLsb' 0 32) ∧
    (waiting (.write 0 .b8 0x0000001000000930) (ready k1 0)).pending = .write 0 .b8 0x0000001000000930 :: [] ∧
    (Width.b8 = .b4 ∨ Width.b8 = .b8) ∧ ¬ spellsCommand ((0x0000001000000930 : Word64).extractLsb' 0 32) := by
  unfold spellsCommand; decide

theorem witness_IllFormedTermsRaise :
    (Instr.seed 0).wf = false ∧ (Instr.seed 4).wf = false ∧ (Instr.read 9).wf = false := by decide

theorem witness_StepRunsTheDecodedCommand :
    (waiting (.write 0 .b8 0xDEADBEEF00000010) State.reset).pending = .write 0 .b8 0xDEADBEEF00000010 :: [] ∧
      (Width.b8 = .b4 ∨ Width.b8 = .b8) ∧
      decode ((0xDEADBEEF00000010 : Word64).extractLsb' 0 32) = .ok .next64 := by decide

theorem witness_IdleStepKeepsTheState : (ready k1 1).pending = [] := rfl

theorem witness_ResetLeavesTheValuesOfTheSpec : (waiting .reset (ready k1 1)).pending = .reset :: [] := rfl

theorem witness_DrawCountsAreBounded :
    (∃ t, exec .nop (ready k1 0) = .next t) ∧ (∃ t, exec .save (ready k1 0) = .next t) ∧
    (∃ t, exec .restore State.reset = .next t) ∧
    (∃ t, exec .restore { State.reset with imgLen := 41 } = .next t ∧ t.err = none) ∧
    (∃ t, exec (.seed 1) State.reset = .next t) ∧ (∃ t, exec (.read 8) (ready k1 0) = .next t) ∧
    (∃ t, exec .next64 (ready k1 0) = .next t ∧ t.err = none) ∧
    (∃ t, exec .uint64n (ready k1 0) = .next t) ∧
    ∃ t, exec .int64n (ready k1 0) = .next t ∧ t.err ≠ none :=
  ⟨⟨_, rfl⟩, ⟨_, rfl⟩, ⟨_, rfl⟩, ⟨_, rfl, rfl⟩, ⟨_, rfl⟩, ⟨_, rfl⟩, ⟨_, rfl, rfl⟩, ⟨_, rfl⟩, ⟨_, rfl, by decide⟩⟩

theorem witness_PeriodLaw : (0 < 1 ∧ 1 < 0 + 2 ^ 64) ∧ (0 < 2 ^ 64 - 1 ∧ 2 ^ 64 - 1 < 0 + 2 ^ 64) := by decide

theorem witness_ReseedingLeavesNoTrace :
    (1 ≤ (3 : BitVec 4).toNat ∧ (3 : BitVec 4).toNat ≤ 3) ∧ (1 ≤ (1 : BitVec 4).toNat ∧ (1 : BitVec 4).toNat ≤ 3) ∧
    (ready k1 5).arg0 = (unready 5).arg0 ∧ (ready k1 5).arg1 = (unready 5).arg1 ∧
    (ready k1 5).arg2 = (unready 5).arg2 ∧ (ready k1 5).gen ≠ (unready 5).gen := by decide

theorem witness_Next64Command : (unready 0).seeded = false ∧ (ready k1 0).seeded = true := ⟨rfl, rfl⟩

theorem witness_UnseededCommandsRaise :
    (unready 0).seeded = false ∧ Instr.intn ∈ drawing ∧ (Instr.read 8).wf = true ∧
      (∃ c, Instr.read 8 = .read c) ∧ Instr.save.wf = true :=
  ⟨rfl, by decide, rfl, ⟨8, rfl⟩, rfl⟩

theorem witness_UnseededGeneratorIsUnobservable :
    (waiting (commandWrite 0x0101) (unready 5)).seeded = false ∧
      ∃ t, step (waiting (commandWrite 0x0101) (unready 5)) = .next t ∧ t.seeded = true :=
  ⟨rfl, _, rfl, rfl⟩

theorem witness_CommandsAreDeterminedByTheirOperands :
    (ready k1 5).gen = ({ ready k1 5 with result := 9, cmd := 0x10 } : State).gen ∧
    (ready k1 5).seeded = ({ ready k1 5 with result := 9, cmd := 0x10 } : State).seeded ∧
    (ready k1 5).arg0 = ({ ready k1 5 with result := 9, cmd := 0x10 } : State).arg0 ∧
    (ready k1 5).arg1 = ({ ready k1 5 with result := 9, cmd := 0x10 } : State).arg1 ∧
    (ready k1 5).arg2 = ({ ready k1 5 with result := 9, cmd := 0x10 } : State).arg2 ∧
    (ready k1 5).imgLen = ({ ready k1 5 with result := 9, cmd := 0x10 } : State).imgLen ∧
    (ready k1 5).img = ({ ready k1 5 with result := 9, cmd := 0x10 } : State).img ∧ hasResult .next64 ∧
    ∃ t, exec .next64 (ready k1 5) = .next t ∧ t.err = none :=
  ⟨rfl, rfl, rfl, rfl, rfl, rfl, rfl, .inl (by decide), _, rfl, rfl⟩

theorem witness_SampleFollowsTheAlgorithm :
    1 ≤ (6 : Word64).toNat ∧
    ¬ refineCondition .docLt ((6 : Word64).toNat * (level 0 1 0 0).next.1.toNat % 2 ^ 64) (6 : Word64).toNat ∧
    refineCondition .docLt
      ((6 : Word64).toNat * (level 0 0x2AAAAAAAAAAAAAAB 0 0).next.1.toNat % 2 ^ 64) (6 : Word64).toNat := by
  rw [level_next, level_next]; unfold refineCondition; decide

theorem witness_SampleIsBelowTheBound :
    1 ≤ (1 : Word64).toNat ∧ 1 ≤ (0xFFFFFFFFFFFFFFFF : Word64).toNat := by decide

theorem witness_DocLtRefinementRarelyCarries :
    (1 ≤ (0x8000000000000000 : Word64).toNat ∧ (0x8000000000000000 : Word64).toNat ≤ 2 ^ 63) ∧
    (lo64 (mul128 0xFFFFFFFFFFFFFFFF 5)).toNat < (0xFFFFFFFFFFFFFFFF : Word64).toNat ∧
    (lo64 (mul128 0xFFFFFFFFFFFFFFFF 5)).toNat + (hi64 (mul128 0xFFFFFFFFFFFFFFFF 7)).toNat ≥ 2 ^ 64 := by
  decide

theorem witness_ZeroBoundGivesZero : (0 : Word64) = 0 ∧ (1 : Word64) ≠ 0 := by decide

theorem witness_Uint64nCommand :
    (unready 6).seeded = false ∧ (ready k1 6).seeded = true ∧
      ((ready k1 0).seeded = true ∧ (ready k1 0).arg0 = 0) := ⟨rfl, rfl, rfl, rfl⟩

theorem witness_Uint32nCommand : (unready 6).seeded = false ∧ (ready k1 6).seeded = true := ⟨rfl, rfl⟩

theorem witness_UintnCommand : (ready k1 6).seeded = true := rfl

theorem witness_Int64nCommand :
    (unready 6).seeded = false ∧ ((ready k1 0).seeded = true ∧ (ready k1 0).arg0 = 0) ∧
    2 ^ 63 ≤ (ready k1 0x8000000000000000).arg0.toNat ∧
    (0 < (ready k1 1).arg0.toNat ∧ (ready k1 0x7FFFFFFFFFFFFFFF).arg0.toNat < 2 ^ 63 ∧
      0 < (ready k1 0x7FFFFFFFFFFFFFFF).arg0.toNat ∧ (ready k1 1).arg0.toNat < 2 ^ 63) := by decide

theorem witness_Int32nCommand :
    (unready 6).seeded = false ∧ (ready k1 0).seeded = true ∧ (ready k1 0x100000000).arg0.toNat % 2 ^ 32 = 0 ∧
    2 ^ 31 ≤ (ready k1 0x80000000).arg0.toNat % 2 ^ 32 ∧
    (0 < (ready k1 0xFFFFFFFF7FFFFFFF).arg0.toNat % 2 ^ 32 ∧
      (ready k1 0xFFFFFFFF7FFFFFFF).arg0.toNat % 2 ^ 32 < 2 ^ 31) ∧
    (0 < (ready k1 1).arg0.toNat % 2 ^ 32 ∧ (ready k1 1).arg0.toNat % 2 ^ 32 < 2 ^ 31) := by decide

theorem witness_IntnCommand :
    (ready k1 0x7FFFFFFFFFFFFFFF).seeded = true ∧ 0 < (ready k1 0x7FFFFFFFFFFFFFFF).arg0.toNat ∧
      (ready k1 0x7FFFFFFFFFFFFFFF).arg0.toNat < 2 ^ 63 := by decide

theorem witness_ReadCommand :
    (8 : BitVec 4).toNat ≤ 8 ∧ (unready 0).seeded = false ∧
    (ready (level 0 0 0 0xFF) 0).gen.rp.toInt < 0 ∧ 8 < (ready (level 0 0 0 9) 0).gen.rp.toInt ∧
    ((ready (level 0 0 0 8) 0).seeded = true ∧ (8 : BitVec 4).toNat ≤ (ready (level 0 0 0 8) 0).gen.rp.toNat ∧
      (ready (level 0 0 0 8) 0).gen.rp.toNat ≤ 8) ∧
    ((0 : BitVec 4).toNat ≤ (ready (level 0 0 0 0) 0).gen.rp.toNat) ∧
    (ready (level 0 0 0 0) 0).gen.rp.toNat < (1 : BitVec 4).toNat ∧
    (ready oneByteLeft 0).gen.rp.toNat < (2 : BitVec 4).toNat := by decide

theorem witness_BadCursorReadRaises :
    (0 : BitVec 4).toNat ≤ 8 ∧ (ready (level 0 0 0 9) 0).seeded = true ∧
      8 < (ready (level 0 0 0 9) 0).gen.rp.toNat := by decide

theorem witness_StepKeepsTheCursorInRange :
    ((waiting (commandWrite 0x41) { ready oneByteLeft 0 with imgLen := 41, img := [(40, 8)] }).cursorInRange ∧
      (∃ t, step (waiting (commandWrite 0x41) { ready oneByteLeft 0 with imgLen := 41, img := [(40, 8)] }) =
        .next t) ∧
      ∀ a rest, [commandWrite 0x41] = a :: rest → a.restores = true → 41 ≤ (41 : Word64).toNat →
        (Memory.read [(40, 8)] 40).toNat ≤ 8) ∧
    (waiting (commandWrite 0x41) { ready oneByteLeft 0 with imgLen := 40, img := [(40, 9)] }).cursorInRange ∧
      (∃ t, step (waiting (commandWrite 0x41) { ready oneByteLeft 0 with imgLen := 40, img := [(40, 9)] }) =
        .next t) ∧
      ∀ a rest, [commandWrite 0x41] = a :: rest → a.restores = true → 41 ≤ (40 : Word64).toNat →
        (Memory.read [(40, 9)] 40).toNat ≤ 8 :=
  ⟨⟨fun _ => rfl, ⟨_, rfl⟩, fun _ _ _ _ _ => by decide⟩, fun _ => rfl, ⟨_, rfl⟩,
    fun _ _ _ _ h => absurd h (by decide)⟩

theorem witness_StepKeepsThePendingBytesLow :
    (waiting (commandWrite 0x0130) (ready oneByteLeft 0)).pendingBytesLow ∧
    (∃ t, step (waiting (commandWrite 0x0130) (ready oneByteLeft 0)) = .next t) ∧
    ∀ a rest, [commandWrite 0x0130] = a :: rest → a.restores = false := by
  refine ⟨fun _ => by decide, ⟨_, rfl⟩, fun a rest h => ?_⟩
  obtain ⟨rfl, rfl⟩ := List.cons.inj h
  decide

theorem witness_ReadFormsEmitTheSameBytes :
    sameStream (level 0 0 0x00CCBBAA 3) (level 0 0 0xCCBBAA0000000000 3) ∧
      sameStream (level 0 0 0 0) (level 0 0 7 0) := by
  unfold sameStream; decide

theorem witness_ChunksDoNotMatter :
    (ready k1 0).seeded = true ∧ (ready k1 0).gen.rp.toNat ≤ 8 ∧ (∀ c ∈ [(3 : BitVec 4), 8, 5], c.toNat ≤ 8) ∧
    (∀ d ∈ [(8 : BitVec 4), 8], d.toNat ≤ 8) ∧
    ([(3 : BitVec 4), 8, 5].map BitVec.toNat).sum = ([(8 : BitVec 4), 8].map BitVec.toNat).sum := by decide

theorem witness_OtherCommandsLeaveTheByteStream :
    (∀ c, Instr.next64 ≠ .read c) ∧ (∀ c, Instr.next64 ≠ .seed c) ∧ Instr.next64 ≠ .restore ∧
      Instr.next64 ∈ drawing ∧ ∃ t, exec .next64 (ready k1 0) = .next t :=
  ⟨by decide, by decide, by decide, by decide, _, rfl⟩

theorem witness_Uint32Command : (unready 0).seeded = false ∧ (ready k1 0).seeded = true := ⟨rfl, rfl⟩

theorem witness_Int31Command : (unready 0).seeded = false ∧ (ready k1 0).seeded = true := ⟨rfl, rfl⟩

theorem witness_Int63Command : (unready 0).seeded = false ∧ (ready k1 0).seeded = true := ⟨rfl, rfl⟩

theorem witness_IntCommand : (ready k1 0).seeded = true := rfl

theorem witness_Float64Command : (unready 0).seeded = false ∧ (ready k1 0).seeded = true := ⟨rfl, rfl⟩

theorem witness_Float32Command : (unready 0).seeded = false ∧ (ready k1 0).seeded = true := ⟨rfl, rfl⟩

theorem witness_FloatPatternsAreExact :
    (0 < (1 : Word64).toNat ∧ (1 : Word64).toNat < 2 ^ 24) ∧
    (0 < (0xFFFFFF : Word64).toNat ∧ (0xFFFFFF : Word64).toNat < 2 ^ 24) ∧
    (0 < (0x1FFFFFFFFFFFFF : Word64).toNat ∧ (0x1FFFFFFFFFFFFF : Word64).toNat < 2 ^ 53) := by decide

theorem witness_FloatsStayBelowOne : (ready k1 0).seeded = true := rfl

theorem witness_SaveCommand :
    (unready 0).seeded = false ∧ (ready k1 0).seeded = true ∧ (41 ≤ 41 ∧ 41 < 48) ∧ (41 ≤ 47 ∧ 47 < 48) := by
  decide

theorem witness_RestoreCommand :
    ({ State.reset with imgLen := 40 } : State).imgLen.toNat < 41 ∧
      41 ≤ ({ State.reset with imgLen := 41 } : State).imgLen.toNat := by decide

theorem witness_SaveAndRestoreRoundTrip :
    (ready k1 0).seeded = true ∧ 41 ≤ ({ State.reset with imgLen := 41 } : State).imgLen.toNat := by decide

theorem witness_RaiseChangesOnlyStatus : ∃ t, exec .next64 (unready 0) = .next t ∧ t.err = some .notSeeded :=
  ⟨_, rfl, rfl⟩

theorem witness_ErrorsAreRaisedByTheirCommands :
    (∃ t, exec .int64n (ready k1 0) = .next t ∧ t.err = some .invalidArgument) ∧
    (∃ t, exec .restore State.reset = .next t ∧ t.err = some .insufficientData) ∧
    (∃ t, exec (.read 0) (unready 0) = .next t ∧ t.err = some .notSeeded) ∧
    (∃ t, exec (.read 0) (ready (level 0 0 0 9) 0) = .next t ∧ t.err = some .cursorRange) ∧
    ∃ t, exec .intn (ready k1 0xFFFFFFFFFFFFFFFB) = .next t ∧ t.err = some .invalidArgument :=
  ⟨⟨_, rfl, rfl⟩, ⟨_, rfl, rfl⟩, ⟨_, rfl, rfl⟩, ⟨_, rfl, rfl⟩, ⟨_, rfl, rfl⟩⟩

theorem witness_OnlyResetClearsStickyAndSeeded :
    (∃ t, step (waiting (commandWrite 0) { ready k1 0 with sticky := true }) = .next t) ∧
    (∀ rest, (waiting (commandWrite 0) { ready k1 0 with sticky := true }).pending ≠ .reset :: rest) ∧
    ({ ready k1 0 with sticky := true } : State).sticky = true ∧ (ready k1 0).seeded = true :=
  ⟨⟨_, rfl⟩, (fun _ h => by cases h), rfl, rfl⟩

theorem witness_FrameOfEveryCommand :
    (∃ t, exec .save (ready k1 0) = .next t ∧ t.err = none) ∧ ¬ hasResult .save ∧ Instr.nop ≠ .save ∧
      (∀ c, Instr.save ≠ .seed c) ∧ (∀ c, Instr.save ≠ .read c) ∧ Instr.save ≠ .restore := by
  refine ⟨⟨_, rfl, rfl⟩, ?_, by decide, by decide, by decide, by decide⟩
  rintro (h | ⟨c, h⟩)
  · revert h; decide
  · cases h

theorem witness_ReadsReturnBytesAndChangeNothing :
    (waiting (.read 0x7F .b1) State.reset).pending = .read 0x7F .b1 :: [] ∧
    (0x7F : Word64).toNat + Width.b1.bytes ≤ 0x80 ∧ (0x7F : Word64).toNat % Width.b1.bytes = 0 ∧
    (0x78 : Word64).toNat + Width.b8.bytes ≤ 0x80 ∧ (0x78 : Word64).toNat % Width.b8.bytes = 0 := by decide

theorem witness_WritesChangeTheBytesTheyCover :
    (waiting (.write 0x68 .b8 7) State.reset).pending = .write 0x68 .b8 7 :: [] ∧ 8 ≤ (0x68 : Word64).toNat ∧
    (0x68 : Word64).toNat + Width.b8.bytes ≤ 0x80 ∧ (0x68 : Word64).toNat % Width.b8.bytes = 0 ∧
    (0x68 ≤ 0x6F ∧ 0x6F < 0x68 + 8 ∧ writable 0x6F) ∧ ¬ (0x68 ≤ 0x70 ∧ 0x70 < 0x68 + 8 ∧ writable 0x70) ∧
    (8 ≤ (8 : Word64).toNat ∧ ¬ writable 8) ∧ writable 0x10 ∧ writable 0x27 ∧ ¬ writable 0x28 ∧
    writable 0x30 ∧ ¬ writable 0x38 ∧ writable 0x40 := by
  unfold writable
  refine ⟨rfl, ?_⟩
  decide

theorem witness_UnadmittedAccessesAreBusErrors :
    (waiting (.read 0x80 .b1) State.reset).pending = .read 0x80 .b1 :: [] ∧
    0x80 < (0x80 : Word64).toNat + Width.b1.bytes ∧ (0x0C : Word64).toNat % Width.b8.bytes ≠ 0 ∧
    (waiting (.write 4 .b4 0) State.reset).pending = .write 4 .b4 0 :: [] ∧
    ((4 : Word64).toNat < 8 ∧ ¬ ((4 : Word64).toNat = 0 ∧ (Width.b4 = .b4 ∨ Width.b4 = .b8))) ∧
    ((0 : Word64).toNat < 8 ∧ ¬ ((0 : Word64).toNat = 0 ∧ (Width.b2 = .b4 ∨ Width.b2 = .b8))) := by decide

theorem witness_StepKeepsTheInvariant :
    (waiting (commandWrite 0x40) (ready k1 0)).Inv ∧
      ∃ t, step (waiting (commandWrite 0x40) (ready k1 0)) = .next t := by
  refine ⟨?_, _, rfl⟩
  unfold State.Inv
  decide

end Sys2Proof.Tests
end

section
/-! The window's base address and the offsets from it (00_scope.md R5, 20_memory.md R50, R51). -/

namespace Sys2Proof.Machine

theorem base_toNat : Config.base.toNat = 128 * Config.baseBlock.toNat := by
  rw [Config.base, BitVec.toNat_append, BitVec.toNat_zero, Nat.or_zero, Nat.shiftLeft_eq, Nat.mul_comm]

@[simp] theorem addressOfOffset_offsetOfAddress (a : Word64) : addressOfOffset (offsetOfAddress a) = a := by
  rw [addressOfOffset, offsetOfAddress, BitVec.add_comm, BitVec.sub_add_cancel]

@[simp] theorem offsetOfAddress_addressOfOffset (off : Word64) : offsetOfAddress (addressOfOffset off) = off := by
  rw [offsetOfAddress, addressOfOffset, BitVec.add_comm, BitVec.add_sub_cancel]

/-- Settles O57: the base ends in seven zero bits, and subtracting it undoes adding it modulo 2^64. -/
theorem addressesAreOffsetsFromTheBase : Obligations.AddressesAreOffsetsFromTheBase := by
  unfold Obligations.AddressesAreOffsetsFromTheBase
  refine ⟨?_, addressOfOffset_offsetOfAddress, offsetOfAddress_addressOfOffset⟩
  rw [base_toNat, Nat.mul_mod_right]

end Sys2Proof.Machine
end

section
/-! What a command, and what a step, leaves as its next state: the outcomes of `exec_outcome` and
`perform_outcome` read off as one case per possible next state. -/

namespace Sys2Proof.Machine

/-- The states a command can leave, one constructor per outcome of `exec_outcome`. -/
inductive CommandEffect (i : Instr) (s : State) : State → Prop where
  | raised (e : CommandError) : CommandEffect i s { s with err := some e, sticky := true }
  | idle (hi : i = .nop) : CommandEffect i s { s with err := none }
  | drawn (hi : draws i = true) (hs : s.seeded = true) (v : Word64) (k : Nat) (hk : k ≤ 2) :
      CommandEffect i s { s with gen := Generator.advance k s.gen, result := v, err := none }
  | read (c : BitVec 4) (hi : i = .read c) (hs : s.seeded = true) (hc : c.toNat ≤ 8)
      (hl : cursorLegal s.gen = true) :
      CommandEffect i s
        { s with gen := (takeBytes Config.params.readForm c.toNat s.gen).2,
                 result := assemble (takeBytes Config.params.readForm c.toNat s.gen).1, err := none }
  | seeded (c : BitVec 4) (hi : i = .seed c) (x : Triple) (hx : seedTriple c s = some x) :
      CommandEffect i s
        { s with gen := seededGenerator Config.params.warmup x, seeded := true, err := none }
  | saved (hi : i = .save) (hs : s.seeded = true) :
      CommandEffect i s
        { s with img := Memory.writeBytes s.img 0 (imageOf s.gen), imgLen := BitVec.ofNat 64 imageLength,
                 err := none }
  | restored (hi : i = .restore) (hl : 41 ≤ s.imgLen.toNat) :
      CommandEffect i s { s with gen := generatorOf s.img, seeded := true, err := none }

theorem complete_setImg_setImgLen (s : State) (m : List Host.Cell) (l : Word64) :
    complete ((s.setImg m).setImgLen l) = .next { s with img := m, imgLen := l, err := none } := rfl

theorem exec_effect {i : Instr} {s t : State} (h : exec i s = .next t) : CommandEffect i s t := by
  cases exec_outcome i s with
  | raised e h' => cases h'.symm.trans h; exact .raised e
  | idle hi h' => cases h'.symm.trans h; exact .idle hi
  | drawn hi hs v k hk h' => cases h'.symm.trans h; exact .drawn hi hs v k hk
  | read c hi hs hc hl h' => cases h'.symm.trans h; exact .read c hi hs hc hl
  | seeded c x hi hx h' => cases h'.symm.trans h; exact .seeded c hi x hx
  | saved hi hs h' => rw [complete_setImg_setImgLen] at h'; cases h'.symm.trans h; exact .saved hi hs
  | restored hi hl h' => cases h'.symm.trans h; exact .restored hi hl

/-- The state in which a command runs: its word stands in `CMD`, its write has left the queue and is answered. -/
def State.atCommand (s : State) (w : Word32) (rest : List HostAction) : State :=
  { s with cmd := w, pending := rest, response := some .done }

/-- The states a step can leave, with the action it performed. -/
inductive StepEffect (s : State) : State → Prop where
  | idle (hp : s.pending = []) : StepEffect s s
  | responded (a : HostAction) (rest : List HostAction) (hp : s.pending = a :: rest) (r : BusResponse) :
      StepEffect s { s with pending := rest, response := some r }
  | written (off : Word64) (n : Width) (v : Word64) (rest : List HostAction)
      (hp : s.pending = .write off n v :: rest) (hn : writeAdmitted off n = true) (ho : 8 ≤ off.toNat) :
      StepEffect s
        ((windowWrite { s with pending := rest } off.toNat (bytesOf v n.bytes)).setResponse (some .done))
  | illegal (off : Word64) (n : Width) (v : Word64) (rest : List HostAction)
      (hp : s.pending = .write off n v :: rest) (hn : writeAdmitted off n = true) (ho : off.toNat < 8)
      (e : DecodeError) (hd : decode (v.extractLsb' 0 32) = .error e) :
      StepEffect s
        { s.atCommand (v.extractLsb' 0 32) rest with err := some .illegalCommand, sticky := true }
  | command (off : Word64) (n : Width) (v : Word64) (rest : List HostAction)
      (hp : s.pending = .write off n v :: rest) (hn : writeAdmitted off n = true) (ho : off.toNat < 8)
      (i : Instr) (hd : decode (v.extractLsb' 0 32) = .ok i) (t : State)
      (h : exec i (s.atCommand (v.extractLsb' 0 32) rest) = .next t) : StepEffect s t
  | reset (rest : List HostAction) (hp : s.pending = .reset :: rest) :
      StepEffect s { State.reset with pending := rest }

theorem step_effect {s t : State} (h : step s = .next t) : StepEffect s t := by
  rcases step_cases s with ⟨hp, hs⟩ | ⟨a, rest, hp, hs⟩
  · cases hs.symm.trans h
    exact .idle hp
  · rw [hs] at h
    cases perform_outcome a { s with pending := rest } with
    | refused _ h' => cases h'.symm.trans h; exact .responded a rest hp _
    | read _ _ _ _ h' => cases h'.symm.trans h; exact .responded a rest hp _
    | written off n v ha hn ho h' => cases h'.symm.trans h; exact .written off n v rest (ha ▸ hp) hn ho
    | illegal off n v e ha hn ho hd h' =>
      cases h'.symm.trans h
      exact .illegal off n v rest (ha ▸ hp) hn ho e hd
    | command off n v i ha hn ho hd h' =>
      exact .command off n v rest (ha ▸ hp) hn ho i hd t (h'.symm.trans h)
    | reset ha h' => cases h'.symm.trans h; exact .reset rest (ha ▸ hp)

end Sys2Proof.Machine
end

section
/-! The step on an idle block and on a waiting command (20_memory.md R67, 60_exceptions.md R216). -/

namespace Sys2Proof.Machine

theorem step_of_idle {s : State} (hp : s.pending = []) : step s = .next s := by
  rcases step_cases s with ⟨-, h⟩ | ⟨a, rest, hp', -⟩
  · exact h
  · cases hp.symm.trans hp'

theorem step_of_pending {s : State} {a : HostAction} {rest : List HostAction} (hp : s.pending = a :: rest) :
    step s = perform a { s with pending := rest } := by
  rcases step_cases s with ⟨hp', -⟩ | ⟨a', rest', hp', h⟩
  · cases hp.symm.trans hp'
  · cases hp.symm.trans hp'
    exact h

/-- A write of 4 or 8 bytes at offset 0 stores the word in `CMD` and runs it (R31, R54). -/
theorem perform_commandWrite {n : Width} (hn : n = .b4 ∨ n = .b8) (v : Word64) (s : State) :
    perform (.write 0 n v) s = runCommand (v.extractLsb' 0 32) (s.setResponse (some .done)) := by
  rcases hn with rfl | rfl <;> rfl

theorem runCommand_of_decode {w : Word32} {i : Instr} (hd : decode w = .ok i) (s : State) :
    runCommand w s = exec i (s.setCmd w) := by
  rw [runCommand, hd]

/-- Settles O6: the write is admitted, and its word decodes to `i`. -/
theorem stepRunsTheDecodedCommand : Obligations.StepRunsTheDecodedCommand := by
  unfold Obligations.StepRunsTheDecodedCommand
  intro s n v rest i hp hn hd
  rw [step_of_pending hp, perform_commandWrite hn, runCommand_of_decode hd]
  rfl

/-- Settles O7: with an empty queue there is nothing to perform. -/
theorem idleStepKeepsTheState : Obligations.IdleStepKeepsTheState := by
  unfold Obligations.IdleStepKeepsTheState
  exact fun _ => step_of_idle

end Sys2Proof.Machine
end

section
/-! Decoding loses nothing: a word that decodes is the word of the command it gives (30_encoding.md R70 to R73). -/

namespace Sys2Proof

theorem noCount_eq_ok {i j : Instr} {cnt : BitVec 4} (h : noCount i cnt = .ok j) : cnt = 0 ∧ i = j := by
  unfold noCount at h
  split at h
  · exact ⟨‹_›, Except.ok.inj h⟩
  · cases h

theorem withCount_eq_ok {i j : Instr} (h : withCount i = .ok j) : i.wf = true ∧ i = j := by
  unfold withCount at h
  split at h
  · exact ⟨‹_›, Except.ok.inj h⟩
  · cases h

/-- The command a row gives has the row's opcode and count. -/
theorem fields_of_decodeRow {op : Byte} {cnt : BitVec 4} {i : Instr} (h : decodeRow op cnt = .ok i) :
    opcode i = op ∧ count i = cnt := by
  unfold decodeRow at h
  split at h
  case h_2 hop | h_16 hop =>
    obtain ⟨-, rfl⟩ := withCount_eq_ok h
    exact ⟨BitVec.eq_of_toNat_eq hop.symm, rfl⟩
  case h_19 => cases h
  all_goals
    rename_i hop
    obtain ⟨rfl, rfl⟩ := noCount_eq_ok h
    exact ⟨BitVec.eq_of_toNat_eq hop.symm, rfl⟩

/-- A command word is its three fields side by side (R70). -/
theorem append_fields (w : Word32) : rsvField w ++ cntField w ++ opField w = w := by
  apply BitVec.eq_of_getLsbD_eq
  intro j hj
  simp only [rsvField, cntField, opField, BitVec.getLsbD_append, BitVec.getLsbD_extractLsb']
  by_cases h8 : j < 8
  · simp [h8]
  · by_cases h12 : j - 8 < 4
    · simp [h8, h12, Nat.add_sub_cancel' (Nat.le_of_not_lt h8)]
    · have e : 12 + (j - 8 - 4) = j := by omega
      have h20 : j - 8 - 4 < 20 := by omega
      simp [h8, h12, h20, e]

/-- A word that decodes is the word of the command it gives. -/
theorem encode_of_decode {w : Word32} {i : Instr} (h : decode w = .ok i) : encode i = w := by
  unfold decode at h
  split at h
  · cases h
  · rename_i hrsv
    obtain ⟨hop, hcnt⟩ := fields_of_decodeRow h
    have hzero : rsvField w = 0#20 := not_not.mp hrsv
    rw [encode, hop, hcnt, ← hzero, append_fields]

end Sys2Proof
end

section
/-! What every step keeps (10_state.md R25, R32, R34): the cursor's range, the invariant, and `STICKY` and
`SEEDED` once set. Each is kept by every command first, and then by every step. -/

namespace Sys2Proof.Machine

@[simp] theorem seededGenerator_rp (m : Nat) (x : Triple) : (seededGenerator m x).rp = 0 := by
  simp [seededGenerator]

theorem State.cursorInRange_iff (s : State) :
    s.cursorInRange ↔ (s.seeded = true → s.gen.rp.toNat ≤ 8) := by
  rw [State.cursorInRange, cursorLegal_iff]

/-- Only a `RESTORE` that goes through can take the cursor out of [0, 8]. -/
theorem exec_keeps_cursorInRange {i : Instr} {s t : State} (hs : s.cursorInRange) (h : exec i s = .next t)
    (hr : i = .restore → 41 ≤ s.imgLen.toNat → (Memory.read s.img 40).toNat ≤ 8) : t.cursorInRange := by
  rw [State.cursorInRange_iff] at hs ⊢
  cases exec_effect h with
  | raised e => exact hs
  | idle hi => exact hs
  | drawn hi hseeded v k hk => simpa using hs
  | read c hi hseeded hc hl => exact fun _ => takeBytes_rp_le _ _ (hs hseeded)
  | seeded c hi x hx => simp
  | saved hi hseeded => exact hs
  | restored hi hl => exact fun _ => hr hi hl

/-- A waiting write that executes `RESTORE` is recognised by `HostAction.restores`. -/
theorem restores_of_decode {off : Word64} {n : Width} {v : Word64} (hn : writeAdmitted off n = true)
    (ho : off.toNat < 8) (hd : decode (v.extractLsb' 0 32) = .ok .restore) :
    (HostAction.write off n v).restores = true := by
  simp [HostAction.restores, hn, ho, encode_of_decode hd]

/-- Settles O32: in the one case that can move the cursor out of range, a `RESTORE` that goes through, the
premise bounds byte 40 of the image. -/
theorem stepKeepsTheCursorInRange : Obligations.StepKeepsTheCursorInRange := by
  unfold Obligations.StepKeepsTheCursorInRange
  intro s t hs h hr
  cases step_effect h with
  | idle hp => exact hs
  | responded a rest hp r => exact hs
  | written off n v rest hp hn ho =>
    obtain ⟨hgen, -, -, hseeded, -⟩ :=
      windowWrite_frame { s with pending := rest } off.toNat (bytesOf v n.bytes)
    simpa [State.cursorInRange, hgen, hseeded] using hs
  | illegal off n v rest hp hn ho e hd => exact hs
  | command off n v rest hp hn ho i hd t h =>
    refine exec_keeps_cursorInRange (s := s.atCommand _ rest) hs h fun hi hl => ?_
    exact hr _ rest hp (restores_of_decode hn ho (hi ▸ hd)) hl
  | reset rest hp => exact fun h => by cases h

theorem exec_keeps_inv {i : Instr} {s t : State} (hs : s.Inv) (h : exec i s = .next t) : t.Inv := by
  obtain ⟨hwf, hsticky, hresult⟩ := hs
  cases exec_effect h with
  | raised e => exact ⟨hwf, fun _ => rfl, hresult⟩
  | idle hi => exact ⟨hwf, by simp, hresult⟩
  | drawn hi hseeded v k hk => exact ⟨hwf, by simp, by simp [hseeded]⟩
  | read c hi hseeded hc hl => exact ⟨hwf, by simp, by simp [hseeded]⟩
  | seeded c hi x hx => exact ⟨hwf, by simp, by simp⟩
  | saved hi hseeded => exact ⟨Memory.wf_writeBytes (by simp) hwf, by simp, hresult⟩
  | restored hi hl => exact ⟨hwf, by simp, by simp⟩

/-- Settles O59: every command keeps the invariant, a write of the window keeps the image's canonical form, and
a reset establishes it anew. -/
theorem stepKeepsTheInvariant : Obligations.StepKeepsTheInvariant := by
  unfold Obligations.StepKeepsTheInvariant
  intro s t hs h
  cases step_effect h with
  | idle hp => exact hs
  | responded a rest hp r => exact hs
  | written off n v rest hp hn ho =>
    obtain ⟨hwf, hsticky, hresult⟩ := hs
    obtain ⟨-, -, herr', hseeded', hsticky', hresult', -⟩ :=
      windowWrite_frame { s with pending := rest } off.toNat (bytesOf v n.bytes)
    exact ⟨windowWrite_wf { s with pending := rest } _ _ hwf, by simpa [herr', hsticky'] using hsticky,
      by simpa [hseeded', hresult'] using hresult⟩
  | illegal off n v rest hp hn ho e hd =>
    obtain ⟨hwf, -, hresult⟩ := hs
    exact ⟨hwf, fun _ => rfl, hresult⟩
  | command off n v rest hp hn ho i hd t h => exact exec_keeps_inv (s := s.atCommand _ rest) hs h
  | reset rest hp => exact ⟨Memory.wf_reset, by simp [State.reset], fun _ => rfl⟩

/-- No command clears `STICKY` or `SEEDED` (R32). -/
theorem exec_keeps_sticky_and_seeded {i : Instr} {s t : State} (h : exec i s = .next t) :
    (s.sticky = true → t.sticky = true) ∧ (s.seeded = true → t.seeded = true) := by
  cases exec_effect h with
  | raised e => exact ⟨fun _ => rfl, id⟩
  | idle hi => exact ⟨id, id⟩
  | drawn hi hseeded v k hk => exact ⟨id, id⟩
  | read c hi hseeded hc hl => exact ⟨id, id⟩
  | seeded c hi x hx => exact ⟨id, fun _ => rfl⟩
  | saved hi hseeded => exact ⟨id, id⟩
  | restored hi hl => exact ⟨id, fun _ => rfl⟩

/-- Settles O51: no command clears either bit, and no access reaches them but through a command. -/
theorem onlyResetClearsStickyAndSeeded : Obligations.OnlyResetClearsStickyAndSeeded := by
  unfold Obligations.OnlyResetClearsStickyAndSeeded
  intro s t h hreset
  cases step_effect h with
  | idle hp => exact ⟨id, id⟩
  | responded a rest hp r => exact ⟨id, id⟩
  | written off n v rest hp hn ho =>
    obtain ⟨-, -, -, hseeded, hsticky, -⟩ :=
      windowWrite_frame { s with pending := rest } off.toNat (bytesOf v n.bytes)
    simp [hseeded, hsticky]
  | illegal off n v rest hp hn ho e hd => exact ⟨fun _ => rfl, id⟩
  | command off n v rest hp hn ho i hd t h => exact exec_keeps_sticky_and_seeded (s := s.atCommand _ rest) h
  | reset rest hp => exact absurd hp (hreset rest)

end Sys2Proof.Machine
end

section
/-! While `SEEDED` is 0 the generator registers are not read (10_state.md R26, 70_reset_and_hazards.md R230). -/

namespace Sys2Proof.Machine

/-- A result that may vary with the generator registers does so in one of two ways only: an unseeded block
carries them along, or they are overwritten by the same state whatever they held. -/
inductive IgnoresGenerator (f : Generator → Result) : Prop where
  | carried (u : State) (hu : u.seeded = false) (h : ∀ g, f g = .next { u with gen := g })
  | overwritten (u : State) (h : ∀ g, f g = .next u)

theorem IgnoresGenerator.ite {c : Prop} [Decidable c] {f f' : Generator → Result}
    (hf : c → IgnoresGenerator f) (hf' : ¬ c → IgnoresGenerator f') :
    IgnoresGenerator fun g => if c then f g else f' g := by
  by_cases h : c
  · simpa [h] using hf h
  · simpa [h] using hf' h

/-- A write of the window neither reads nor writes the generator. -/
theorem windowWrite_setGen (s : State) (g : Generator) (off : Nat) (bs : List Byte) :
    windowWrite { s with gen := g } off bs = { windowWrite s off bs with gen := g } := by
  induction bs generalizing s off with
  | nil => rfl
  | cons b bs ih =>
    have hstore : storeByte { s with gen := g } off b = { storeByte s off b with gen := g } := by
      unfold storeByte
      cases placeAt off <;> rfl
    rw [windowWrite, windowWrite, hstore, ih]

section
variable {s : State} (hs : s.seeded = false)
include hs

theorem ignoresGenerator_of_raise {e : CommandError} {f : Generator → Result}
    (h : ∀ g, f g = raise e { s with gen := g }) : IgnoresGenerator f :=
  .carried { s with err := some e, sticky := true } hs h

theorem withGenerator_ignoresGenerator (k : Generator → Generator → Result) :
    IgnoresGenerator fun g => withGenerator { s with gen := g } (k g) :=
  ignoresGenerator_of_raise hs fun g => withGenerator_unseeded (s := { s with gen := g }) hs _

theorem draws_ignoresGenerator {i : Instr} (hi : draws i = true) :
    IgnoresGenerator fun g => exec i { s with gen := g } := by
  refine ignoresGenerator_of_raise hs (e := .notSeeded) fun g => ?_
  rcases draws_outcome hi { s with gen := g } with ⟨-, h⟩ | ⟨hseeded, -⟩
  · exact h
  · exact absurd (hs.symm.trans hseeded) (by decide)

/-- On an unseeded block no command reads the generator: `SEED` and `RESTORE` overwrite it, every other command
leaves it. -/
theorem exec_ignoresGenerator (i : Instr) : IgnoresGenerator fun g => exec i { s with gen := g } := by
  by_cases hd : draws i = true
  · exact draws_ignoresGenerator hs hd
  cases i
  case nop => exact .carried { s with err := none } hs fun _ => rfl
  case seed c =>
    have hx (g : Generator) : seedTriple c { s with gen := g } = seedTriple c s := rfl
    simp only [exec, execSeed, hx]
    cases seedTriple c s with
    | none => exact ignoresGenerator_of_raise hs fun _ => rfl
    | some x =>
      exact .overwritten { s with gen := seededGenerator Config.params.warmup x, seeded := true, err := none }
        fun _ => rfl
  case read c =>
    exact .ite (fun _ => withGenerator_ignoresGenerator hs _) fun _ => ignoresGenerator_of_raise hs fun _ => rfl
  case save => exact withGenerator_ignoresGenerator hs _
  case restore =>
    exact .ite (c := s.imgLen.toNat < imageLength) (fun _ => ignoresGenerator_of_raise hs fun _ => rfl)
      fun _ => .overwritten { s with gen := generatorOf s.img, seeded := true, err := none } fun _ => rfl
  all_goals exact absurd rfl hd

theorem runCommand_ignoresGenerator (w : Word32) :
    IgnoresGenerator fun g => runCommand w { s with gen := g } := by
  unfold runCommand
  cases decode w with
  | error e => exact ignoresGenerator_of_raise (s := s.setCmd w) hs fun _ => rfl
  | ok i => exact exec_ignoresGenerator (s := s.setCmd w) hs i

theorem refuseAccess_ignoresGenerator : IgnoresGenerator fun g => refuseAccess { s with gen := g } :=
  .carried (s.setResponse (some .busError)) hs fun _ => rfl

/-- On an unseeded block no action reads the generator. -/
theorem perform_ignoresGenerator (a : HostAction) :
    IgnoresGenerator fun g => perform a { s with gen := g } := by
  cases a with
  | read off n =>
    exact .ite (fun _ => .carried (s.setResponse (some (.data (windowRead s off.toNat n.bytes)))) hs fun _ => rfl)
      fun _ => refuseAccess_ignoresGenerator hs
  | write off n v =>
    refine .ite (fun _ => .ite (fun _ => ?_) fun _ => ?_) fun _ => refuseAccess_ignoresGenerator hs
    · exact runCommand_ignoresGenerator (s := s.setResponse (some .done)) hs _
    · refine .carried ((windowWrite s off.toNat (bytesOf v n.bytes)).setResponse (some .done)) ?_ fun g => ?_
      · obtain ⟨-, -, -, hseeded, -⟩ := windowWrite_frame s off.toNat (bytesOf v n.bytes)
        exact hseeded.trans hs
      · rw [windowWrite_setGen]; rfl
  | reset => exact .overwritten { State.reset with pending := s.pending } fun _ => rfl

theorem step_ignoresGenerator : IgnoresGenerator fun g => step { s with gen := g } := by
  rcases step_cases s with ⟨hp, -⟩ | ⟨a, rest, hp, -⟩
  · exact .carried s hs fun g => step_of_idle (s := { s with gen := g }) hp
  · have hstep (g : Generator) : step { s with gen := g } = perform a { s with pending := rest, gen := g } :=
      step_of_pending (s := { s with gen := g }) hp
    simpa only [hstep] using perform_ignoresGenerator (s := { s with pending := rest }) hs a

end

/-- Settles O17: the step either carries the generator registers along or overwrites them. -/
theorem unseededGeneratorIsUnobservable : Obligations.UnseededGeneratorIsUnobservable := by
  unfold Obligations.UnseededGeneratorIsUnobservable
  intro s g t hs ht
  cases step_ignoresGenerator hs with
  | carried u hu h =>
    cases ht.symm.trans (h s.gen)
    exact ⟨_, h g, rfl, fun hseeded => absurd (hu.symm.trans hseeded) (by decide)⟩
  | overwritten u h =>
    cases ht.symm.trans (h s.gen)
    exact ⟨_, h g, rfl, fun _ => rfl⟩

end Sys2Proof.Machine
end

section
/-! The frame of every command (10_state.md R38): one lemma for each part of the state. -/

namespace Sys2Proof.Machine

open Sys2Proof.Claims

theorem mem_drawing_of_draws {i : Instr} (h : draws i = true) : i ∈ drawing := by
  cases i
  case nop | seed | read | save | restore => cases h
  all_goals decide

section
variable {i : Instr} {s t : State} (h : exec i s = .next t)
include h

/-- No command writes what the host alone writes, nor the queue, nor the answer. -/
theorem exec_keeps_operands : t.cmd = s.cmd ∧ t.arg0 = s.arg0 ∧ t.arg1 = s.arg1 ∧ t.arg2 = s.arg2 ∧
    t.pending = s.pending ∧ t.response = s.response := by
  cases exec_effect h <;> exact ⟨rfl, rfl, rfl, rfl, rfl, rfl⟩

theorem exec_keeps_sticky_of_ok (hok : t.err = none) : t.sticky = s.sticky := by
  cases exec_effect h with
  | raised e => cases hok
  | idle | drawn | read | seeded | saved | restored => rfl

theorem exec_keeps_image (hi : i ≠ .save) : t.imgLen = s.imgLen ∧ t.img = s.img := by
  cases exec_effect h with
  | saved hi' => exact absurd hi' hi
  | raised | idle | drawn | read | seeded | restored => exact ⟨rfl, rfl⟩

/-- No command reaches an image byte from 48 on. -/
theorem exec_keeps_image_above {j : Nat} (hj : 48 ≤ j) : Memory.read t.img j = Memory.read s.img j := by
  cases exec_effect h with
  | saved => rw [read_savedImage, if_neg (Nat.not_lt.mpr hj)]
  | raised | idle | drawn | read | seeded | restored => rfl

theorem exec_keeps_result (hi : ¬ hasResult i) : t.result = s.result := by
  cases exec_effect h with
  | drawn hd => exact absurd (Or.inl (mem_drawing_of_draws hd)) hi
  | read c hc => exact absurd (Or.inr ⟨c, hc⟩) hi
  | raised | idle | seeded | saved | restored => rfl

theorem exec_keeps_seeded (hseed : ∀ c, i ≠ .seed c) (hrestore : i ≠ .restore) : t.seeded = s.seeded := by
  cases exec_effect h with
  | seeded c hc => exact absurd hc (hseed c)
  | restored hr => exact absurd hr hrestore
  | raised | idle | drawn | read | saved => rfl

theorem exec_keeps_generator (hi : i = .nop ∨ i = .save) : t.gen = s.gen := by
  cases exec_effect h with
  | drawn hd => rcases hi with rfl | rfl <;> cases hd
  | read c hc | seeded c hc => rcases hi with rfl | rfl <;> cases hc
  | restored hr => rcases hi with rfl | rfl <;> cases hr
  | raised | idle | saved => rfl

/-- Draws leave the byte reader's part of the generator. -/
theorem exec_keeps_stream (hread : ∀ c, i ≠ .read c) (hseed : ∀ c, i ≠ .seed c) (hrestore : i ≠ .restore) :
    t.gen.rv = s.gen.rv ∧ t.gen.rp = s.gen.rp := by
  cases exec_effect h with
  | drawn => exact ⟨Generator.advance_rv _ _, Generator.advance_rp _ _⟩
  | read c hc => exact absurd hc (hread c)
  | seeded c hc => exact absurd hc (hseed c)
  | restored hr => exact absurd hr hrestore
  | raised | idle | saved => exact ⟨rfl, rfl⟩

end

/-- Settles O52: the frame lemmas together. -/
theorem frameOfEveryCommand : Obligations.FrameOfEveryCommand := by
  unfold Obligations.FrameOfEveryCommand
  intro i s t h
  refine ⟨exec_keeps_operands h, exec_keeps_sticky_of_ok h, fun hi => ?_,
    fun _ _ => exec_keeps_image_above h, exec_keeps_result h, exec_keeps_seeded h, exec_keeps_generator h,
    exec_keeps_stream h⟩
  obtain ⟨hlen, himg⟩ := exec_keeps_image h hi
  exact ⟨hlen, fun j => by rw [himg]⟩

end Sys2Proof.Machine
end

section
/-! What stands in the register window (10_state.md R30 to R32, R36, R37). -/

namespace Sys2Proof.Machine

theorem byteOf_windowRead (s : State) (off : Nat) {j : Nat} (hj : j < 8) :
    byteOf (windowRead s off 8) j = windowByte s (off + j) := by
  rw [windowRead, byteOf_assemble _ hj]
  simp [hj]

/-- An 8-byte read where the map has the eight places `p 0` to `p 7`, which hold the bytes of `x`, returns `x`. -/
theorem windowRead_eq {s : State} {off : Nat} {x : Word64} (p : Nat → Place)
    (hp : ∀ j < 8, placeAt (off + j) = p j) (hx : ∀ j, placeByte s (p j) = byteOf x j) :
    windowRead s off 8 = x :=
  word_ext_bytes fun j hj => by rw [byteOf_windowRead s off hj, windowByte, hp j hj, hx]

@[simp] theorem byteOf_zero (j : Nat) : byteOf 0 j = 0 := by simp [byteOf]

/-- `STATUS` as a number (R32). -/
theorem statusWord_toNat (s : State) :
    (statusWord s).toNat = (errCode s.err).toNat + 16 * s.seeded.toNat + 32 * s.sticky.toNat := by
  have herr := (errCode s.err).isLt
  have happend {m : Nat} (x : BitVec m) {n : Nat} (y : BitVec n) : (x ++ y).toNat = 2 ^ n * x.toNat + y.toNat := by
    rw [BitVec.toNat_append, Nat.mul_comm, ← Nat.shiftLeft_eq, Nat.shiftLeft_add_eq_or_of_lt y.isLt]
  simp only [statusWord, happend, BitVec.toNat_ofBool, BitVec.toNat_zero]
  omega

/-- Settles O53: the map puts byte `j` of each register at its base plus `j`. -/
theorem windowHoldsTheRegisters : Obligations.WindowHoldsTheRegisters := by
  unfold Obligations.WindowHoldsTheRegisters
  intro s
  have hreserved (j : Nat) : placeByte s .reserved = byteOf 0 j := (byteOf_zero j).symm
  refine ⟨windowRead_eq .cmd (by decide) fun _ => rfl, windowRead_eq .status (by decide) fun _ => rfl,
    statusWord_toNat s, windowRead_eq .arg0 (by decide) fun _ => rfl,
    windowRead_eq .arg1 (by decide) fun _ => rfl, windowRead_eq .arg2 (by decide) fun _ => rfl,
    windowRead_eq .result (by decide) fun _ => rfl, windowRead_eq .imgLen (by decide) fun _ => rfl,
    windowRead_eq (fun _ => .reserved) (by decide) hreserved,
    windowRead_eq (fun _ => .reserved) (by decide) hreserved,
    windowRead_eq (fun _ => .reserved) (by decide) hreserved, fun i hi => ?_⟩
  have hplace : ∀ k < 48, placeAt (0x40 + k) = .img k := by decide
  rw [windowByte, hplace i hi, placeByte]

end Sys2Proof.Machine
end

section
/-! Host accesses to the window (20_memory.md R51 to R57, 60_exceptions.md R206): which are admitted, what an
admitted read answers, what an admitted write outside `CMD` changes, and how every other access is refused. -/

namespace Sys2Proof.Machine

open Sys2Proof.Claims

theorem four_le_bytes_iff (n : Width) : 4 ≤ n.bytes ↔ n = .b4 ∨ n = .b8 := by
  cases n <;> decide

theorem readAdmitted_iff (off : Word64) (n : Width) :
    readAdmitted off n = true ↔ off.toNat + n.bytes ≤ 0x80 ∧ off.toNat % n.bytes = 0 := by
  simp [readAdmitted]

theorem writeAdmitted_iff (off : Word64) (n : Width) :
    writeAdmitted off n = true ↔
      readAdmitted off n = true ∧ (8 ≤ off.toNat ∨ off.toNat = 0 ∧ (n = .b4 ∨ n = .b8)) := by
  simp [writeAdmitted, four_le_bytes_iff]

theorem perform_read_of_admitted {off : Word64} {n : Width} (h : readAdmitted off n = true) (s : State) :
    perform (.read off n) s = .next { s with response := some (.data (windowRead s off.toNat n.bytes)) } :=
  if_pos h

theorem perform_write_of_admitted {off : Word64} {n : Width} (h : writeAdmitted off n = true)
    (ho : 8 ≤ off.toNat) (v : Word64) (s : State) :
    perform (.write off n v) s =
      .next ((windowWrite s off.toNat (bytesOf v n.bytes)).setResponse (some .done)) :=
  (if_pos h).trans (if_neg (Nat.not_lt.mpr ho))

theorem perform_of_not_admitted {a : HostAction} (h : ¬ a.admitted = true) (s : State) :
    perform a s = .next { s with response := some .busError } := by
  cases a with
  | read off n => exact if_neg h
  | write off n v => exact if_neg h
  | reset => exact absurd rfl h

/-- Byte `j` of what a read returns: the window's byte there, 0 above the width (R52). -/
theorem byteOf_windowRead_width (s : State) (off n : Nat) {j : Nat} (hj : j < 8) :
    byteOf (windowRead s off n) j = if j < n then windowByte s (off + j) else 0 := by
  rw [windowRead, byteOf_assemble _ hj]
  by_cases hn : j < n <;> simp [hn]

/-- Settles O54: the access is admitted, and the answer's bytes are those of `windowRead`. -/
theorem readsReturnBytesAndChangeNothing : Obligations.ReadsReturnBytesAndChangeNothing := by
  unfold Obligations.ReadsReturnBytesAndChangeNothing
  intro s off n rest hp hwindow haligned
  have hn : readAdmitted off n = true := (readAdmitted_iff off n).mpr ⟨hwindow, haligned⟩
  exact ⟨_, (step_of_pending hp).trans (perform_read_of_admitted hn _),
    fun j hj => byteOf_windowRead_width _ _ _ hj⟩

/-- The map of R30 puts writable places at exactly the writable offsets. -/
theorem placeAt_writable_iff (o : Nat) : (placeAt o).writable = true ↔ writable o := by
  unfold placeAt writable
  repeat' split
  all_goals
    simp only [Place.writable, Bool.false_eq_true, true_iff, false_iff]
    omega

/-- What a write of the low `n` bytes of `v` leaves at an offset it covers and can change. -/
theorem windowByte_windowWrite_of_covered (s : State) (v : Word64) {off n o : Nat}
    (h : off ≤ o ∧ o < off + n ∧ writable o) :
    windowByte (windowWrite s off (bytesOf v n)) o = byteOf v (o - off) := by
  obtain ⟨hlo, hhi, hw⟩ := h
  rw [windowByte_windowWrite, bytesOf_length, if_pos ⟨⟨hlo, hhi⟩, (placeAt_writable_iff o).mpr hw⟩,
    bytesOf_getD v (by omega)]

theorem windowByte_windowWrite_of_not_covered (s : State) (v : Word64) {off n o : Nat}
    (h : ¬ (off ≤ o ∧ o < off + n ∧ writable o)) :
    windowByte (windowWrite s off (bytesOf v n)) o = windowByte s o := by
  rw [windowByte_windowWrite, bytesOf_length, if_neg]
  rwa [placeAt_writable_iff, and_assoc]

/-- Settles O55: the step is a `windowWrite`, which has its frame and leaves the written byte exactly at the
covered writable offsets. -/
theorem writesChangeTheBytesTheyCover : Obligations.WritesChangeTheBytesTheyCover := by
  unfold Obligations.WritesChangeTheBytesTheyCover
  intro s off n v rest hp ho hwindow haligned
  have hn : writeAdmitted off n = true :=
    (writeAdmitted_iff off n).mpr ⟨(readAdmitted_iff off n).mpr ⟨hwindow, haligned⟩, .inl ho⟩
  obtain ⟨hgen, hcmd, herr, hseeded, hsticky, hresult, hpending, -⟩ :=
    windowWrite_frame { s with pending := rest } off.toNat (bytesOf v n.bytes)
  exact ⟨_, (step_of_pending hp).trans (perform_write_of_admitted hn ho v _), hpending, rfl, hgen, hcmd, herr,
    hseeded, hsticky, hresult, fun o _ =>
      ⟨windowByte_windowWrite_of_covered { s with pending := rest } v,
        windowByte_windowWrite_of_not_covered { s with pending := rest } v⟩⟩

/-- Settles O56: each listed fault contradicts the admission of its access, and what is not admitted is refused. -/
theorem unadmittedAccessesAreBusErrors : Obligations.UnadmittedAccessesAreBusErrors := by
  unfold Obligations.UnadmittedAccessesAreBusErrors
  intro s off n v rest
  refine ⟨fun hp hfault => ?_, fun hp hfault => ?_⟩
  all_goals refine (step_of_pending hp).trans (perform_of_not_admitted (fun hn => ?_) _)
  · obtain ⟨hwindow, haligned⟩ := (readAdmitted_iff off n).mp hn
    rcases hfault with houtside | hmisaligned
    · omega
    · exact hmisaligned haligned
  · obtain ⟨hread, hcmd⟩ := (writeAdmitted_iff off n).mp hn
    obtain ⟨hwindow, haligned⟩ := (readAdmitted_iff off n).mp hread
    rcases hfault with houtside | hmisaligned | ⟨hlow, hform⟩
    · omega
    · exact hmisaligned haligned
    · exact hform (hcmd.resolve_left (Nat.not_le.mpr hlow))

end Sys2Proof.Machine
end

section
/-! A word decodes exactly when it spells a command, and a command decodes from its own word exactly when its count
is legal (30_encoding.md R70 to R73). -/

namespace Sys2Proof

open Sys2Proof.Claims

/-- A command word read as `RSV * 2^12 + CNT * 2^8 + OP` (R70), with `RSV = 0`. -/
theorem toNat_encode (i : Instr) : (encode i).toNat = (count i).toNat * 0x100 + (opcode i).toNat := by
  simp only [encode, BitVec.toNat_append, BitVec.toNat_zero, Nat.zero_shiftLeft, Nat.zero_or]
  rw [← Nat.shiftLeft_add_eq_or_of_lt (opcode i).isLt, Nat.shiftLeft_eq]

@[simp] theorem toNat_opField (w : Word32) : (opField w).toNat = w.toNat % 2 ^ 8 := by simp [opField]

@[simp] theorem toNat_cntField (w : Word32) : (cntField w).toNat = w.toNat / 2 ^ 8 % 2 ^ 4 := by
  simp [cntField, Nat.shiftRight_eq_div_pow]

theorem rsvField_eq_zero_iff (w : Word32) : rsvField w = 0 ↔ w.toNat / 2 ^ 12 = 0 := by
  have hlt := w.isLt
  have hrsv : (rsvField w).toNat = w.toNat / 2 ^ 12 % 2 ^ 20 := by
    simp [rsvField, Nat.shiftRight_eq_div_pow]
  rw [← BitVec.toNat_inj, hrsv, BitVec.ofNat_eq_ofNat, BitVec.toNat_zero]
  omega

@[simp] theorem opField_encode (i : Instr) : opField (encode i) = opcode i := by
  have hop := (opcode i).isLt
  apply BitVec.eq_of_toNat_eq
  rw [toNat_opField, toNat_encode]
  omega

@[simp] theorem cntField_encode (i : Instr) : cntField (encode i) = count i := by
  have hop := (opcode i).isLt
  have hcnt := (count i).isLt
  apply BitVec.eq_of_toNat_eq
  rw [toNat_cntField, toNat_encode]
  omega

@[simp] theorem rsvField_encode (i : Instr) : rsvField (encode i) = 0 := by
  have hop := (opcode i).isLt
  have hcnt := (count i).isLt
  rw [rsvField_eq_zero_iff, toNat_encode]
  omega

/-- A command's own row of R72 checks its count and nothing else. -/
theorem decodeRow_opcode_count (i : Instr) : decodeRow (opcode i) (count i) = withCount i := by
  cases i <;> rfl

theorem decode_of_rsvField {w : Word32} (h : rsvField w = 0) :
    decode w = decodeRow (opField w) (cntField w) :=
  if_neg (not_not.mpr h)

/-- Decoding a command's own word checks its count and nothing else. -/
@[simp] theorem decode_encode (i : Instr) : decode (encode i) = withCount i := by
  rw [decode_of_rsvField (rsvField_encode i), opField_encode, cntField_encode, decodeRow_opcode_count]

theorem withCount_of_wf {i : Instr} (h : i.wf = true) : withCount i = .ok i := if_pos h

theorem wf_of_decode {w : Word32} {i : Instr} (h : decode w = .ok i) : i.wf = true := by
  rw [← encode_of_decode h, decode_encode] at h
  exact (withCount_eq_ok h).1

/-- Settles O2: a command's own word passes its row's check of the count, and a word that decodes is the word of
the command it gives. -/
theorem decodeAndEncodeAgree : Obligations.DecodeAndEncodeAgree := by
  unfold Obligations.DecodeAndEncodeAgree
  exact ⟨fun i hi => (decode_encode i).trans (withCount_of_wf hi),
    fun w i hd => ⟨wf_of_decode hd, encode_of_decode hd⟩⟩

/-- The rows of R72 that the statements list are rows of the decoder. -/
theorem decodeRow_isOk_of_mem_opcodeRows :
    ∀ row ∈ opcodeRows, ∀ c ∈ row.2, (decodeRow (BitVec.ofNat 8 row.1) (BitVec.ofNat 4 c)).isOk = true := by
  decide

/-- A command with a legal count is in the rows of R72 that the statements list. -/
theorem mem_opcodeRows_of_wf {i : Instr} (h : i.wf = true) :
    ∃ row ∈ opcodeRows, row.1 = (opcode i).toNat ∧ (count i).toNat ∈ row.2 := by
  cases i with
  | seed c => revert c; decide
  | read c => revert c; decide
  | _ => decide

theorem fields_of_decode {w : Word32} {i : Instr} (h : decode w = .ok i) :
    opField w = opcode i ∧ cntField w = count i ∧ rsvField w = 0 := by
  rw [← encode_of_decode h]
  exact ⟨opField_encode i, cntField_encode i, rsvField_encode i⟩

/-- The three checks of R71 are passed by exactly the words that spell a command. -/
theorem spellsCommand_iff_decode (w : Word32) : spellsCommand w ↔ ∃ i, decode w = .ok i := by
  rw [spellsCommand, ← rsvField_eq_zero_iff, ← toNat_opField, ← toNat_cntField]
  constructor
  · rintro ⟨hrsv, row, hrow, hop, hcnt⟩
    have hok := decodeRow_isOk_of_mem_opcodeRows row hrow _ hcnt
    rw [hop, BitVec.ofNat_toNat, BitVec.ofNat_toNat, BitVec.setWidth_eq, BitVec.setWidth_eq,
      ← decode_of_rsvField hrsv] at hok
    cases hd : decode w with
    | ok i => exact ⟨i, rfl⟩
    | error e => rw [hd] at hok; cases hok
  · rintro ⟨i, hd⟩
    obtain ⟨hop, hcnt, hrsv⟩ := fields_of_decode hd
    rw [hop, hcnt]
    exact ⟨hrsv, mem_opcodeRows_of_wf (wf_of_decode hd)⟩

/-- Settles O1: the fields do not overlap, and the example words are decoded one by one. -/
theorem decodesTheWordsOfTheSpec : Obligations.DecodesTheWordsOfTheSpec := by
  unfold Obligations.DecodesTheWordsOfTheSpec
  exact ⟨fun i _ => toNat_encode i, by decide⟩

end Sys2Proof
end

section
/-! Running a word that spells no command, and a term that no word decodes to: both raise ILLEGAL_COMMAND
(30_encoding.md R71). -/

namespace Sys2Proof.Machine

open Sys2Proof.Claims

theorem runCommand_of_not_spellsCommand {w : Word32} (h : ¬ spellsCommand w) (s : State) :
    runCommand w s = raise .illegalCommand (s.setCmd w) := by
  cases hd : decode w with
  | ok i => exact absurd ((spellsCommand_iff_decode w).mpr ⟨i, hd⟩) h
  | error e => rw [runCommand, hd]

/-- Settles O3: a word that spells a command decodes to the command with its fields, and every other word decodes
to none. -/
theorem decodingFollowsTheThreeChecks : Obligations.DecodingFollowsTheThreeChecks := by
  unfold Obligations.DecodingFollowsTheThreeChecks
  intro w s
  constructor
  · intro hw
    obtain ⟨i, hd⟩ := (spellsCommand_iff_decode w).mp hw
    obtain ⟨hop, hcnt, -⟩ := fields_of_decode hd
    exact ⟨i, by rw [← hop, toNat_opField], by rw [← hcnt, toNat_cntField], hd, runCommand_of_decode hd s⟩
  · exact fun hw => runCommand_of_not_spellsCommand hw s

theorem seedTriple_eq_none {c : BitVec 4} (h : (Instr.seed c).wf = false) (s : State) : seedTriple c s = none := by
  unfold seedTriple
  split
  case h_4 => rfl
  all_goals
    rename_i hc
    simp [Instr.wf, hc] at h

/-- A term with an illegal count is executed as the illegal word it stands for (log 12). -/
theorem exec_of_not_wf {i : Instr} (h : i.wf = false) (s : State) : exec i s = raise .illegalCommand s := by
  cases i with
  | seed c => simp [exec, execSeed, seedTriple_eq_none h s]
  | read c => exact if_neg (of_decide_eq_false h)
  | _ => cases h

/-- Settles O5: what decodes is well-formed, and the meanings of `seed` and `read` refuse an illegal count
themselves. -/
theorem illFormedTermsRaise : Obligations.IllFormedTermsRaise := by
  unfold Obligations.IllFormedTermsRaise
  intro i s hi
  exact ⟨fun w hd => Bool.false_ne_true (hi.symm.trans (wf_of_decode hd)), exec_of_not_wf hi s⟩

end Sys2Proof.Machine
end

section
/-! The engine transition (40_engine.md R100 to R105): its word, its effect, and its period. -/

namespace Sys2Proof.Machine

/-- The mixing register `P_OUT` names, as a function of the generator (R102). -/
def summedRegister : MixRegister → Generator → Word64
  | .a => Generator.a
  | .b => Generator.b
  | .c => Generator.c

theorem Generator.next_word (g : Generator) : g.next.1 = summedRegister Config.outRegister g + g.w := by
  change outputWord g.a g.b g.c g.w = _
  unfold outputWord
  cases Config.outRegister <;> rfl

/-- Settles O11: the register summed is the configured one, the same for every generator. -/
theorem transitionFollowsTheRule : Obligations.TransitionFollowsTheRule := by
  unfold Obligations.TransitionFollowsTheRule
  refine ⟨summedRegister Config.outRegister, ?_,
    fun g => ⟨g.next_word, g.next_registers, ?_, g.next_rv, g.next_rp⟩⟩
  · cases Config.outRegister with
    | a => exact .inl rfl
    | b => exact .inr (.inl rfl)
    | c => exact .inr (.inr rfl)
  · rw [Generator.next_w, BitVec.toNat_add]
    rfl

theorem engineTransition_injective : Function.Injective engineTransition := by
  rintro ⟨r, w⟩ ⟨r', w'⟩ h
  obtain ⟨hmix, hw⟩ := Prod.mk.inj h
  obtain rfl : w = w' := (BitVec.add_left_inj 1).mp hw
  exact Prod.ext ((Config.mix w).injective hmix) rfl

theorem engineTransition_surjective : Function.Surjective engineTransition := by
  rintro ⟨r, w⟩
  refine ⟨((Config.mix (w - 1)).symm r, w - 1), Prod.ext ?_ ?_⟩
  · exact (Config.mix (w - 1)).apply_symm_apply r
  · exact BitVec.sub_add_cancel w 1

theorem Generator.engine_next (g : Generator) : g.next.2.engine = engineTransition g.engine := rfl

/-- Fewer than 2^64 transitions apart, the counters differ. -/
theorem Generator.advance_w_ne (g : Generator) {i j : Nat} (hij : i < j) (hj : j < i + 2 ^ 64) :
    (Generator.advance i g).w ≠ (Generator.advance j g).w := by
  intro h
  rw [Generator.advance_w, Generator.advance_w, BitVec.add_right_inj, ← BitVec.toNat_inj, BitVec.toNat_ofNat,
    BitVec.toNat_ofNat] at h
  omega

/-- Settles O12: each counter's mix is a bijection, and the counter alone tells fewer than 2^64 consecutive engine
states apart. -/
theorem periodLaw : Obligations.PeriodLaw := by
  unfold Obligations.PeriodLaw
  exact ⟨⟨engineTransition_injective, engineTransition_surjective⟩, Generator.engine_next,
    fun g i j hij hj h => g.advance_w_ne hij hj (congrArg Prod.snd h)⟩

end Sys2Proof.Machine
end

section
/-! `SEED`, `NEXT64`, and the commands that need a seeded block (40_engine.md R101, R106 to R108). -/

namespace Sys2Proof.Machine

open Sys2Proof.Claims

theorem seededGenerator_eq_advance (m : Nat) (x : Triple) :
    seededGenerator m x = Generator.advance m (freshlySeeded x) := rfl

theorem exec_seed_of_seedTriple {k : BitVec 4} {s : State} {x : Triple} (hx : seedTriple k s = some x) :
    exec (.seed k) s = .next { s with
      gen := Generator.advance Config.params.warmup (freshlySeeded x), seeded := true, err := none } := by
  rw [← seededGenerator_eq_advance]
  simp [exec, execSeed, hx, complete_eq, State.setGen, State.setSeeded]

/-- Settles O13: each count has its strategy, and warm-up transitions count up from 1 and leave `RV` and `RP`. -/
theorem seedCommand : Obligations.SeedCommand := by
  unfold Obligations.SeedCommand
  refine ⟨by decide, by decide, by decide, fun s => ⟨?_, ?_, ?_⟩, fun m r => ⟨?_, ?_, ?_⟩⟩
  · exact exec_seed_of_seedTriple rfl
  · exact exec_seed_of_seedTriple rfl
  · exact exec_seed_of_seedTriple rfl
  · exact Generator.advance_w m _
  · exact Generator.advance_rv m _
  · exact Generator.advance_rp m _

/-- A legal count gives a seed, which depends on the words it reads alone (R106). -/
theorem seedTriple_of_agree {k : BitVec 4} {s s' : State} (hk : 1 ≤ k.toNat) (hk' : k.toNat ≤ 3)
    (h0 : s.arg0 = s'.arg0) (h1 : 2 ≤ k.toNat → s.arg1 = s'.arg1) (h2 : k.toNat = 3 → s.arg2 = s'.arg2) :
    ∃ x, seedTriple k s = some x ∧ seedTriple k s' = some x := by
  obtain hk | hk | hk : k.toNat = 1 ∨ k.toNat = 2 ∨ k.toNat = 3 := by omega
  · exact ⟨Config.seed1 s'.arg0, by simp [seedTriple, hk, h0]⟩
  · exact ⟨Config.seed2 s'.arg0 s'.arg1, by simp [seedTriple, hk, h0, h1]⟩
  · exact ⟨Config.seed3 s'.arg0 s'.arg1 s'.arg2, by simp [seedTriple, hk, h0, h1, h2]⟩

/-- Settles O14: both states give the same seed, and the generator is overwritten by it. -/
theorem reseedingLeavesNoTrace : Obligations.ReseedingLeavesNoTrace := by
  unfold Obligations.ReseedingLeavesNoTrace
  intro k s s' hk hk' h0 h1 h2
  obtain ⟨x, hx, hx'⟩ := seedTriple_of_agree hk hk' h0 h1 h2
  exact ⟨_, _, exec_seed_of_seedTriple hx, exec_seed_of_seedTriple hx', rfl⟩

/-- Settles O15: the one draw is delivered as it stands, behind the guard on `SEEDED`. -/
theorem next64Command : Obligations.Next64Command := by
  unfold Obligations.Next64Command
  exact ⟨by decide, fun s => ⟨fun hs => withGenerator_unseeded hs _, fun hs => execNext64_seeded hs⟩⟩

theorem draws_of_mem_drawing : ∀ i ∈ drawing, draws i = true := by decide

theorem exec_unseeded_of_draws {i : Instr} (hi : draws i = true) {s : State} (hs : s.seeded = false) :
    exec i s = raise .notSeeded s := by
  rcases draws_outcome hi s with ⟨-, h⟩ | ⟨hseeded, -⟩
  · exact h
  · exact absurd (hs.symm.trans hseeded) Bool.false_ne_true

theorem exec_read_of_wf {c : BitVec 4} (hc : (Instr.read c).wf = true) (s : State) :
    exec (.read c) s = readCommand Config.params.readForm c.toNat s :=
  if_pos (of_decide_eq_true hc)

/-- Settles O16: every one of these commands reaches the generator through the guard on `SEEDED`. -/
theorem unseededCommandsRaise : Obligations.UnseededCommandsRaise := by
  unfold Obligations.UnseededCommandsRaise
  rintro i s hwf hs (hi | ⟨c, rfl⟩ | rfl)
  · exact exec_unseeded_of_draws (draws_of_mem_drawing i hi) hs
  · exact (exec_read_of_wf hwf s).trans (withGenerator_unseeded hs _)
  · exact withGenerator_unseeded hs _

end Sys2Proof.Machine
end

section
/-! A command's outcome depends on the generator, `SEEDED` and its operands alone (40_engine.md R109). -/

namespace Sys2Proof.Machine

open Sys2Proof.Claims

/-- `s` with every part that is no operand taken from `u`. -/
def State.withNonOperands (s u : State) : State :=
  { u with gen := s.gen, seeded := s.seeded, arg0 := s.arg0, arg1 := s.arg1, arg2 := s.arg2,
           imgLen := s.imgLen, img := s.img }

/-- What R109 says of the outcomes `r` and `r'` of one command. -/
def SameOutcome (i : Instr) (r r' : Result) : Prop :=
  ∃ t t', r = .next t ∧ r' = .next t' ∧ t.gen = t'.gen ∧ t.err = t'.err ∧ t.seeded = t'.seeded ∧
    t.imgLen = t'.imgLen ∧ t.img = t'.img ∧ (hasResult i → t.err = none → t.result = t'.result)

theorem SameOutcome.ite {i : Instr} {c : Prop} [Decidable c] {x x' y y' : Result} (hx : SameOutcome i x x')
    (hy : SameOutcome i y y') : SameOutcome i (if c then x else y) (if c then x' else y') := by
  split
  · exact hx
  · exact hy

section
variable {i : Instr} (s u : State)

theorem SameOutcome.raised (e : CommandError) : SameOutcome i (raise e s) (raise e (s.withNonOperands u)) :=
  ⟨_, _, rfl, rfl, rfl, rfl, rfl, rfl, rfl, nofun⟩

theorem SameOutcome.delivered (r : Word64 × Generator) :
    SameOutcome i (deliver r s) (deliver r (s.withNonOperands u)) :=
  ⟨_, _, rfl, rfl, rfl, rfl, rfl, rfl, rfl, fun _ _ => rfl⟩

theorem SameOutcome.completed (hi : ¬ hasResult i) : SameOutcome i (complete s) (complete (s.withNonOperands u)) :=
  ⟨_, _, rfl, rfl, rfl, rfl, rfl, rfl, rfl, fun h => absurd h hi⟩

theorem SameOutcome.guarded {k k' : Generator → Result} (hk : ∀ g, SameOutcome i (k g) (k' g)) :
    SameOutcome i (withGenerator s k) (withGenerator (s.withNonOperands u) k') := by
  cases hs : s.seeded
  · rw [withGenerator_unseeded hs, withGenerator_unseeded (s := s.withNonOperands u) hs]
    exact .raised s u _
  · rw [withGenerator_seeded hs, withGenerator_seeded (s := s.withNonOperands u) hs]
    exact hk _

end

theorem not_hasResult {i : Instr} (hd : draws i = false) (hr : ∀ c, i ≠ .read c) : ¬ hasResult i := by
  rintro (hi | ⟨c, hi⟩)
  · exact absurd (hd.symm.trans (draws_of_mem_drawing i hi)) Bool.false_ne_true
  · exact hr c hi

/-- Every command reads the non-operands at most to carry them along. -/
theorem exec_sameOutcome (i : Instr) (s u : State) :
    SameOutcome i (exec i s) (exec i (s.withNonOperands u)) := by
  cases i with
  | nop => exact .completed s u (not_hasResult rfl nofun)
  | seed c =>
    have hx : seedTriple c (s.withNonOperands u) = seedTriple c s := rfl
    simp only [exec, execSeed, hx]
    cases seedTriple c s with
    | none => exact .raised s u _
    | some x => exact .completed ((s.setGen _).setSeeded true) u (not_hasResult rfl nofun)
  | read c =>
    exact .ite (.guarded s u fun _ => .ite (.delivered s u _) (.raised s u _)) (.raised s u _)
  | save => exact .guarded s u fun _ => .completed ((s.setImg _).setImgLen _) u (not_hasResult rfl nofun)
  | restore =>
    exact .ite (c := s.imgLen.toNat < imageLength) (.raised s u _)
      (.completed ((s.setGen _).setSeeded true) u (not_hasResult rfl nofun))
  | int64n | int32n | intn =>
    exact .guarded s u fun _ => .ite (.raised s u _) (.delivered s u _)
  | next64 | uint32 | int31 | int63 | int | float64 | float32 | uint64n | uint32n | uintn =>
    exact .guarded s u fun _ => .delivered s u _

/-- Settles O18: a state that agrees with `s` on the operands is `s` with other non-operands. -/
theorem commandsAreDeterminedByTheirOperands : Obligations.CommandsAreDeterminedByTheirOperands := by
  unfold Obligations.CommandsAreDeterminedByTheirOperands
  intro i s s' hgen hseeded h0 h1 h2 hlen himg
  have hs' : s.withNonOperands s' = s' := by
    rw [State.withNonOperands, hgen, hseeded, h0, h1, h2, hlen, himg]
  rw [← hs']
  exact exec_sameOutcome i s s'

end Sys2Proof.Machine
end

section
/-! The arithmetic of the sampler (41_sampler.md R120 to R123, R131, R133): its branches over the naturals, its range,
when its carry can be 1, and the zero bound. -/

namespace Sys2Proof.Machine

open Sys2Proof.Claims

theorem refineNeeded_iff (r : RefineMode) (frac n : Word64) :
    refineNeeded r frac n = true ↔ refineCondition r frac.toNat n.toNat := by
  cases r <;> exact decide_eq_true_iff

theorem sample64_of_refine {r : RefineMode} {n : Word64} {g : Generator}
    (h : refineNeeded r (lo64 (mul128 n g.next.1)) n = true) :
    sample64 r n g = (refinedResult n g.next.1 g.next.2.next.1, g.next.2.next.2) := if_pos h

theorem sample64_of_not_refine {r : RefineMode} {n : Word64} {g : Generator}
    (h : ¬ refineNeeded r (lo64 (mul128 n g.next.1)) n = true) :
    sample64 r n g = (hi64 (mul128 n g.next.1), g.next.2) := if_neg h

theorem hi64_mul128_lt {n : Word64} (hn : 1 ≤ n.toNat) (v : Word64) : (hi64 (mul128 n v)).toNat < n.toNat := by
  rw [hi64_mul128_toNat]
  exact Nat.div_lt_of_lt_mul (Nat.mul_comm _ _ ▸ Nat.mul_lt_mul_of_pos_right v.isLt hn)

theorem carryOut_le_one (x y : Word64) : (carryOut x y).toNat ≤ 1 := by
  rw [carryOut_toNat]
  split <;> omega

theorem carryOut_of_lt {x y : Word64} (h : x.toNat + y.toNat < 2 ^ 64) : carryOut x y = 0 :=
  if_neg (Nat.not_le_of_lt h)

/-- The addition of the carry in R120 is exact. -/
theorem refinedResult_toNat {n : Word64} (hn : 1 ≤ n.toNat) (v1 v2 : Word64) :
    (refinedResult n v1 v2).toNat =
      (hi64 (mul128 n v1)).toNat + (carryOut (lo64 (mul128 n v1)) (hi64 (mul128 n v2))).toNat := by
  have hhi := hi64_mul128_lt hn v1
  have hcarry := carryOut_le_one (lo64 (mul128 n v1)) (hi64 (mul128 n v2))
  rw [refinedResult, BitVec.toNat_add, Nat.mod_eq_of_lt (by omega)]

/-- Settles O19: the two branches of the sampler, each half of a product and the carry read over the naturals. -/
theorem sampleFollowsTheAlgorithm : Obligations.SampleFollowsTheAlgorithm := by
  unfold Obligations.SampleFollowsTheAlgorithm
  intro r n g hn p frac
  have href : refineNeeded r (lo64 (mul128 n g.next.1)) n = true ↔ refineCondition r frac n.toNat := by
    rw [refineNeeded_iff, lo64_mul128_toNat]
  refine ⟨fun h => ?_, fun h => ?_⟩
  · rw [sample64_of_not_refine (mt href.mp h)]
    exact ⟨hi64_mul128_toNat n _, rfl⟩
  · rw [sample64_of_refine (href.mpr h)]
    refine ⟨?_, rfl⟩
    rw [refinedResult_toNat hn, carryOut_toNat, hi64_mul128_toNat, lo64_mul128_toNat, hi64_mul128_toNat]

/-- Where the high half is already `n - 1`, the low half is at most `2^64 - n`, and no carry leaves it. -/
theorem carryOut_of_hi64_eq {n v1 : Word64} (hn : 1 ≤ n.toNat) (h : (hi64 (mul128 n v1)).toNat = n.toNat - 1)
    (v2 : Word64) : carryOut (lo64 (mul128 n v1)) (hi64 (mul128 n v2)) = 0 := by
  apply carryOut_of_lt
  have hhi := hi64_mul128_lt hn v2
  have hprod : n.toNat * (v1.toNat + 1) ≤ n.toNat * 2 ^ 64 := Nat.mul_le_mul_left _ v1.isLt
  rw [Nat.mul_succ] at hprod
  rw [hi64_mul128_toNat] at h
  rw [lo64_mul128_toNat]
  omega

theorem refinedResult_lt {n : Word64} (hn : 1 ≤ n.toNat) (v1 v2 : Word64) :
    (refinedResult n v1 v2).toNat < n.toNat := by
  rw [refinedResult_toNat hn]
  have hhi := hi64_mul128_lt hn v1
  by_cases h : (hi64 (mul128 n v1)).toNat = n.toNat - 1
  · rw [carryOut_of_hi64_eq hn h]
    exact hhi
  · have hcarry := carryOut_le_one (lo64 (mul128 n v1)) (hi64 (mul128 n v2))
    omega

/-- Settles O20: the high half alone is below `n`, and a carry is added only where it stays so. -/
theorem sampleIsBelowTheBound : Obligations.SampleIsBelowTheBound := by
  unfold Obligations.SampleIsBelowTheBound
  intro r n v1 v2 hn
  apply Nat.le_sub_one_of_lt
  split
  · exact refinedResult_lt hn v1 v2
  · exact hi64_mul128_lt hn v1

theorem sample64_lt (r : RefineMode) {n : Word64} (hn : 1 ≤ n.toNat) (g : Generator) :
    (sample64 r n g).1.toNat < n.toNat := by
  by_cases h : refineNeeded r (lo64 (mul128 n g.next.1)) n = true
  · rw [sample64_of_refine h]
    exact refinedResult_lt hn _ _
  · rw [sample64_of_not_refine h]
    exact hi64_mul128_lt hn _

/-- Under `DOC_LT` both terms of the carry's sum are below the bound (R133). -/
theorem bound_of_carry {n v1 v2 : Word64} (hfrac : (lo64 (mul128 n v1)).toNat < n.toNat)
    (hcarry : (lo64 (mul128 n v1)).toNat + (hi64 (mul128 n v2)).toNat ≥ 2 ^ 64) : 2 ^ 63 + 1 ≤ n.toNat := by
  have hhi := hi64_mul128_lt (Nat.one_le_of_lt hfrac) v2
  omega

theorem refinedResult_of_docLt {n v1 : Word64} (hn : n.toNat ≤ 2 ^ 63)
    (hfrac : (lo64 (mul128 n v1)).toNat < n.toNat) (v2 : Word64) : refinedResult n v1 v2 = hi64 (mul128 n v1) := by
  have hsum : (lo64 (mul128 n v1)).toNat + (hi64 (mul128 n v2)).toNat < 2 ^ 64 :=
    Nat.lt_of_not_le fun hcarry => Nat.not_succ_le_self _ ((bound_of_carry hfrac hcarry).trans hn)
  rw [refinedResult, carryOut_of_lt hsum]
  exact BitVec.add_zero _

/-- Settles O21: a bound up to 2^63 is too small for the carry's sum to reach 2^64. -/
theorem docLtRefinementRarelyCarries : Obligations.DocLtRefinementRarelyCarries := by
  unfold Obligations.DocLtRefinementRarelyCarries
  refine ⟨fun n g _ hn => ?_, fun n v1 v2 => bound_of_carry⟩
  by_cases hfrac : (lo64 (mul128 n g.next.1)).toNat < n.toNat
  · rw [sample64_of_refine ((refineNeeded_iff .docLt _ n).mpr hfrac), if_pos hfrac]
    exact ⟨refinedResult_of_docLt hn hfrac _, rfl⟩
  · rw [sample64_of_not_refine (mt (refineNeeded_iff .docLt _ n).mp hfrac), if_neg hfrac]
    exact ⟨rfl, rfl⟩

theorem bounded_zero (p : Config.Params) (g : Generator) :
    bounded p 0 g = (0, Generator.advance p.zeroNDraws.val g) := rfl

theorem bounded_of_ne_zero (p : Config.Params) {n : Word64} (hn : n ≠ 0) (g : Generator) :
    bounded p n g = sample64 p.refine n g := if_neg hn

theorem one_le_toNat_of_ne_zero {n : Word64} (hn : n ≠ 0) : 1 ≤ n.toNat :=
  Nat.one_le_iff_ne_zero.mpr fun h => hn (BitVec.eq_of_toNat_eq h)

theorem bounded_le (p : Config.Params) (n : Word64) (g : Generator) : (bounded p n g).1.toNat ≤ n.toNat := by
  by_cases hn : n = 0
  · rw [hn, bounded_zero]
  · rw [bounded_of_ne_zero p hn]
    exact (sample64_lt p.refine (one_le_toNat_of_ne_zero hn) g).le

/-- Settles O22: the two branches of `Bounded`. -/
theorem zeroBoundGivesZero : Obligations.ZeroBoundGivesZero := by
  unfold Obligations.ZeroBoundGivesZero
  exact fun p n g => ⟨fun hn => hn ▸ bounded_zero p g, fun hn => bounded_of_ne_zero p hn g⟩

end Sys2Proof.Machine
end

section
/-! The bounded commands (41_sampler.md R124 to R130): their operands, and what they answer. -/

namespace Sys2Proof.Machine

open Sys2Proof.Claims

theorem bound32_toNat (s : State) : (bound32 s).toNat = s.arg0.toNat % 2 ^ 32 := by
  rw [bound32, BitVec.toNat_setWidth, BitVec.extractLsb'_toNat, Nat.shiftRight_zero]
  omega

theorem bound32_eq_ofNat (s : State) : bound32 s = BitVec.ofNat 64 (s.arg0.toNat % 2 ^ 32) := by
  rw [← bound32_toNat, BitVec.ofNat_toNat, BitVec.setWidth_eq]

/-- A two's complement pattern is not positive where it is 0 or its top bit is 1. -/
theorem toInt_le_zero_iff {w : Nat} (x : BitVec w) : x.toInt ≤ 0 ↔ x.toNat = 0 ∨ 2 ^ w ≤ 2 * x.toNat := by
  have hx : x.toInt = 0 ↔ x.toNat = 0 := by
    rw [← BitVec.toInt_zero, BitVec.toInt_inj, ← BitVec.toNat_inj, BitVec.toNat_zero]
  rw [Int.le_iff_eq_or_lt, hx, BitVec.toInt_neg_iff]

theorem signedBound64_le_zero_iff (s : State) :
    signedBound64 s ≤ 0 ↔ s.arg0.toNat = 0 ∨ 2 ^ 63 ≤ s.arg0.toNat := by
  rw [signedBound64, toInt_le_zero_iff]
  omega

theorem signedBound32_le_zero_iff (s : State) :
    signedBound32 s ≤ 0 ↔ s.arg0.toNat % 2 ^ 32 = 0 ∨ 2 ^ 31 ≤ s.arg0.toNat % 2 ^ 32 := by
  rw [signedBound32, toInt_le_zero_iff, BitVec.extractLsb'_toNat, Nat.shiftRight_zero]
  omega

/-- The platform word's width is no operand of the sampler. -/
theorem unsignedBounded_setWordSize (p : Config.Params) (z : WordSize) (n : Word64) (s : State) :
    unsignedBounded { p with wordSize := z } n s = unsignedBounded p n s := rfl

theorem signedBounded_setWordSize (p : Config.Params) (z : WordSize) (n : Int) (x : Word64) (s : State) :
    signedBounded { p with wordSize := z } n x s = signedBounded p n x s := rfl

section
variable {s : State} (hs : s.seeded = true) (p : Config.Params)
include hs

theorem unsignedBounded_eq_answered (n : Word64) :
    unsignedBounded p n s = .next (answered (bounded p n s.gen).1 (bounded p n s.gen).2 s) :=
  unsignedBounded_seeded hs p n

theorem signedBounded_of_le_zero {n : Int} (hn : n ≤ 0) (x : Word64) :
    signedBounded p n x s = .next (raised .invalidArgument s) :=
  (signedBounded_seeded hs p n x).trans (if_pos hn)

theorem signedBounded_of_pos {n : Int} (hn : ¬ n ≤ 0) (x : Word64) :
    signedBounded p n x s = .next (answered (sample64 p.refine x s.gen).1 (sample64 p.refine x s.gen).2 s) :=
  (signedBounded_seeded hs p n x).trans (if_neg hn)

end

/-- Settles O23: the bound is `ARG0` as it stands. -/
theorem uint64nCommand : Obligations.Uint64nCommand := by
  unfold Obligations.Uint64nCommand
  refine ⟨by decide, fun s => ⟨fun hs => withGenerator_unseeded hs _,
    fun hs => unsignedBounded_eq_answered hs _ s.arg0, fun hs h0 => ?_⟩⟩
  exact (unsignedBounded_eq_answered hs _ s.arg0).trans (by rw [h0, bounded_zero])

/-- Settles O24: the bound is the low half of `ARG0`, so it and the result are below 2^32. -/
theorem uint32nCommand : Obligations.Uint32nCommand := by
  unfold Obligations.Uint32nCommand
  refine ⟨by decide, fun s => ?_⟩
  rw [← bound32_eq_ofNat]
  refine ⟨fun hs => withGenerator_unseeded hs _, fun hs => unsignedBounded_eq_answered hs _ _, ?_⟩
  calc (bounded Config.params (bound32 s) s.gen).1.toNat
      ≤ (bound32 s).toNat := bounded_le _ _ _
    _ = s.arg0.toNat % 2 ^ 32 := bound32_toNat s
    _ < 2 ^ 32 := Nat.mod_lt _ (by decide)

/-- Settles O25: either width calls the command of that width, and the configured one is 64. -/
theorem uintnCommand : Obligations.UintnCommand := by
  unfold Obligations.UintnCommand
  refine ⟨by decide, fun s => ⟨?_, ?_, rfl⟩, fun s hs => unsignedBounded_eq_answered hs _ s.arg0⟩
  · exact unsignedBounded_setWordSize _ _ (bound64 s) s
  · exact unsignedBounded_setWordSize _ _ (bound32 s) s

theorem exec_int64n_of_pos {s : State} (hs : s.seeded = true) (h0 : 0 < s.arg0.toNat) (h63 : s.arg0.toNat < 2 ^ 63) :
    exec .int64n s = .next (answered (sample64 Config.params.refine s.arg0 s.gen).1
      (sample64 Config.params.refine s.arg0 s.gen).2 s) :=
  signedBounded_of_pos hs _ (by rw [signedBound64_le_zero_iff]; omega) s.arg0

/-- Settles O26: the signed bound is positive exactly where `ARG0` is neither 0 nor at least 2^63. -/
theorem int64nCommand : Obligations.Int64nCommand := by
  unfold Obligations.Int64nCommand
  refine ⟨by decide, fun s => ⟨fun hs => withGenerator_unseeded hs _, fun hs hn => ?_, fun hs h0 h63 => ?_⟩⟩
  · exact signedBounded_of_le_zero hs _
      ((signedBound64_le_zero_iff s).mpr (hn.imp_left (congrArg BitVec.toNat))) s.arg0
  · exact ⟨exec_int64n_of_pos hs h0 h63, sample64_lt _ h0 _⟩

/-- Settles O27: the same reading of the low half of `ARG0`, with its sign at bit 31. -/
theorem int32nCommand : Obligations.Int32nCommand := by
  unfold Obligations.Int32nCommand
  refine ⟨by decide, fun s => ?_⟩
  dsimp only
  rw [← bound32_eq_ofNat]
  refine ⟨fun hs => withGenerator_unseeded hs _, fun hs hn => ?_, fun hs h0 h31 => ⟨?_, ?_⟩⟩
  · exact signedBounded_of_le_zero hs _ ((signedBound32_le_zero_iff s).mpr hn) _
  · exact signedBounded_of_pos hs _ (by rw [signedBound32_le_zero_iff]; omega) _
  · rw [← bound32_toNat] at h0 ⊢
    exact sample64_lt _ h0 _

/-- Settles O28: either width calls the command of that width, and the configured one is 64. -/
theorem intnCommand : Obligations.IntnCommand := by
  unfold Obligations.IntnCommand
  refine ⟨by decide, fun s => ⟨?_, ?_, rfl⟩, fun s => exec_int64n_of_pos⟩
  · exact signedBounded_setWordSize _ _ (signedBound64 s) (bound64 s) s
  · exact signedBounded_setWordSize _ _ (signedBound32 s) (bound32 s) s

theorem bound32_append (n h : Word32) (s : State) : bound32 { s with arg0 := h ++ n } = n.setWidth 64 :=
  congrArg (BitVec.setWidth 64) BitVec.extractLsb'_append_eq_right

/-- `ARG0` reaches the outcome through the bound alone. -/
theorem unsignedBounded_setArg0_agree (p : Config.Params) (n x y : Word64) (s : State) :
    ∃ t t', unsignedBounded p n (s.setArg0 x) = .next t ∧ unsignedBounded p n (s.setArg0 y) = .next t' ∧
      t.result = t'.result ∧ t.gen = t'.gen ∧ t.err = t'.err := by
  cases hs : s.seeded with
  | false =>
    exact ⟨_, _, withGenerator_unseeded (s := s.setArg0 x) hs _, withGenerator_unseeded (s := s.setArg0 y) hs _,
      rfl, rfl, rfl⟩
  | true =>
    exact ⟨_, _, unsignedBounded_eq_answered (s := s.setArg0 x) hs p n,
      unsignedBounded_eq_answered (s := s.setArg0 y) hs p n, rfl, rfl, rfl⟩

/-- Settles O29: both commands sample the same bound. -/
theorem narrowAndWideAgree : Obligations.NarrowAndWideAgree := by
  unfold Obligations.NarrowAndWideAgree
  intro n h s
  have hnarrow : exec .uint32n (s.setArg0 (h ++ n)) =
      unsignedBounded Config.params (n.setWidth 64) (s.setArg0 (h ++ n)) :=
    congrArg (unsignedBounded Config.params · (s.setArg0 (h ++ n))) (bound32_append n h s)
  obtain ⟨t, t', ht, ht', hagree⟩ :=
    unsignedBounded_setArg0_agree Config.params (n.setWidth 64) (h ++ n) (n.setWidth 64) s
  exact ⟨t, t', hnarrow.trans ht, ht', hagree⟩

end Sys2Proof.Machine
end

section
/-! The value of a list of bytes: assembling is reading the bytes as digits to base 256 (00_scope.md R6, R52). -/

namespace Sys2Proof.Machine

/-- The number a list of bytes spells, lowest byte first. -/
def bytesValue (l : List Byte) : Nat := Nat.ofDigits (2 ^ 8) (l.map BitVec.toNat)

theorem toNat_assemble_cons (b : Byte) (l : List Byte) :
    (assemble (b :: l)).toNat = (b.toNat + 2 ^ 8 * (assemble l).toNat) % 2 ^ 64 := by
  have hb := b.isLt
  have hshift : (assemble l).toNat * 2 ^ 8 % 2 ^ 64 = 2 ^ 8 * ((assemble l).toNat % 2 ^ 56) := by omega
  rw [assemble, BitVec.toNat_or, BitVec.toNat_shiftLeft, BitVec.toNat_setWidth, Nat.shiftLeft_eq, hshift,
    Nat.mod_eq_of_lt (a := b.toNat) (by omega), ← Nat.two_pow_add_eq_or_of_lt hb]
  omega

/-- Assembling keeps the number that the bytes spell, modulo 2^64. -/
theorem assemble_eq_ofNat (l : List Byte) : assemble l = BitVec.ofNat 64 (bytesValue l) := by
  apply BitVec.eq_of_toNat_eq
  rw [BitVec.toNat_ofNat]
  induction l with
  | nil => rfl
  | cons b l ih => rw [toNat_assemble_cons, ih, Nat.add_mod, Nat.mul_mod_mod, ← Nat.add_mod]; rfl

theorem bytesValue_append (l l' : List Byte) :
    bytesValue (l ++ l') = bytesValue l + 2 ^ (8 * l.length) * bytesValue l' := by
  rw [bytesValue, List.map_append, Nat.ofDigits_append, List.length_map, ← Nat.pow_mul]
  rfl

theorem byteOf_toNat (x : Word64) (i : Nat) : (byteOf x i).toNat = x.toNat / 2 ^ (8 * i) % 2 ^ 8 := by
  rw [byteOf, BitVec.extractLsb'_toNat, Nat.shiftRight_eq_div_pow]

theorem bytesOf_succ (x : Word64) (k : Nat) : bytesOf x (k + 1) = bytesOf x k ++ [byteOf x k] := by
  simp [bytesOf, List.range_succ]

/-- The low `k` bytes of a word spell its value modulo `2^(8k)`. -/
theorem bytesValue_bytesOf (x : Word64) (k : Nat) : bytesValue (bytesOf x k) = x.toNat % 2 ^ (8 * k) := by
  induction k with
  | zero => simp [bytesValue, bytesOf, Nat.mod_one]
  | succ k ih =>
    rw [bytesOf_succ, bytesValue_append, ih, bytesOf_length, Nat.mul_succ, Nat.pow_add, Nat.mod_mul, ← byteOf_toNat]
    simp [bytesValue]

/-- The low `j` bytes of `x` below the low `k` bytes of `y`. -/
theorem bytesValue_bytesOf_append (x y : Word64) (j k : Nat) :
    bytesValue (bytesOf x j ++ bytesOf y k) =
      (x.toNat % 2 ^ (8 * j) + y.toNat * 2 ^ (8 * j)) % 2 ^ (8 * (j + k)) := by
  have hpos : 0 < 2 ^ (8 * j) := Nat.two_pow_pos _
  rw [bytesValue_append, bytesValue_bytesOf, bytesValue_bytesOf, bytesOf_length, Nat.mul_add, Nat.pow_add, Nat.mod_mul,
    Nat.add_mul_mod_self_right, Nat.mod_mod, Nat.add_mul_div_right _ _ hpos, Nat.mod_div_self, Nat.zero_add]

/-- A word's bytes are the bytes it was assembled from. -/
theorem bytesOf_assemble {l : List Byte} (hl : l.length ≤ 8) : bytesOf (assemble l) l.length = l := by
  refine List.ext_getElem (bytesOf_length _ _) fun i hi hi' => ?_
  rw [bytesOf_getElem _ hi', byteOf_assemble _ (by omega), List.getD_eq_getElem _ _ hi']

/-- Shifting out `k` bytes renumbers the ones above them. -/
theorem byteOf_shiftRight (x : Word64) (k i : Nat) : byteOf (x >>> (8 * k)) i = byteOf x (k + i) := by
  apply BitVec.eq_of_toNat_eq
  rw [byteOf_toNat, byteOf_toNat, BitVec.toNat_ushiftRight, Nat.shiftRight_eq_div_pow, Nat.div_div_eq_div_mul,
    ← Nat.pow_add, ← Nat.mul_add]

end Sys2Proof.Machine
end

section
/-! The byte reader in closed form (42_byte_reader.md R140, R142): what a form holds unconsumed, what consuming bytes
leaves, and a refill in between. -/

namespace Sys2Proof.Machine

/-- The unconsumed bytes of a generator, moved to the low end (R142). -/
def unconsumed (f : ReadForm) (g : Generator) : Word64 :=
  match f with
  | .shift => g.rv
  | .index => g.rv >>> (8 * (8 - g.rp.toNat))

/-- The generator after `k` of its unconsumed bytes are consumed (R140, R142). -/
def consume (f : ReadForm) (k : Nat) (g : Generator) : Generator :=
  match f with
  | .shift => { g with rv := g.rv >>> (8 * k), rp := BitVec.ofNat 8 (g.rp.toNat - k) }
  | .index => { g with rp := BitVec.ofNat 8 (g.rp.toNat - k) }

theorem toNat_ne_zero_of_ne_zero {x : Byte} (hx : x ≠ 0) : x.toNat ≠ 0 := fun h => hx (BitVec.eq_of_toNat_eq h)

section
variable (f : ReadForm) (g : Generator)

theorem toNat_sub_one_of_ne_zero {x : Byte} (hx : x ≠ 0) : x - 1 = BitVec.ofNat 8 (x.toNat - 1) := by
  have hpos := toNat_ne_zero_of_ne_zero hx
  have hlt := x.isLt
  apply BitVec.eq_of_toNat_eq
  rw [BitVec.toNat_sub, BitVec.toNat_ofNat]
  change (2 ^ 8 - 1 + x.toNat) % 2 ^ 8 = _
  omega

/-- Taking a byte from a cursor above 0 takes the lowest unconsumed one. -/
theorem emitByte_eq {g : Generator} (hg : g.rp ≠ 0) :
    emitByte f g = (byteOf (unconsumed f g) 0, consume f 1 g) := by
  have hrp := toNat_sub_one_of_ne_zero hg
  cases f with
  | shift => simp only [emitByte, unconsumed, consume, hrp]
  | index => simp only [emitByte, unconsumed, consume, hrp, byteOf_shiftRight, Nat.add_zero]

theorem takeByte_of_ne_zero {g : Generator} (hg : g.rp ≠ 0) :
    takeByte f g = (byteOf (unconsumed f g) 0, consume f 1 g) := by
  rw [takeByte, refill, if_neg hg, emitByte_eq f hg]

theorem consume_rp_toNat (k : Nat) : (consume f k g).rp.toNat = g.rp.toNat - k := by
  have hlt := g.rp.isLt
  have hmod : (g.rp.toNat - k) % 2 ^ 8 = g.rp.toNat - k := Nat.mod_eq_of_lt (by omega)
  cases f <;> exact (BitVec.toNat_ofNat _ _).trans hmod

theorem consume_zero : consume f 0 g = g := by
  cases f <;> simp [consume]

theorem consume_consume (j k : Nat) : consume f k (consume f j g) = consume f (j + k) g := by
  have hrp : (BitVec.ofNat 8 (g.rp.toNat - j)).toNat = g.rp.toNat - j := consume_rp_toNat .index g j
  cases f <;> simp only [consume, hrp, Nat.sub_sub, Nat.mul_add, BitVec.shiftRight_add]

theorem unconsumed_consume {k : Nat} (hk : k ≤ g.rp.toNat) (hg : g.rp.toNat ≤ 8) :
    unconsumed f (consume f k g) = unconsumed f g >>> (8 * k) := by
  cases f with
  | shift => rfl
  | index =>
    have hsum : 8 * (8 - (g.rp.toNat - k)) = 8 * (8 - g.rp.toNat) + 8 * k := by omega
    rw [unconsumed, consume_rp_toNat, hsum, BitVec.shiftRight_add]
    rfl

/-- A read within the unconsumed bytes takes the lowest of them and draws nothing. -/
theorem takeBytes_of_le {k : Nat} (hk : k ≤ g.rp.toNat) (hg : g.rp.toNat ≤ 8) :
    takeBytes f k g = (bytesOf (unconsumed f g) k, consume f k g) := by
  induction k with
  | zero => rw [takeBytes_zero, consume_zero]; rfl
  | succ k ih =>
    have hne : (consume f k g).rp ≠ 0 := fun h => by
      have hrp := consume_rp_toNat f g k
      rw [h, BitVec.ofNat_eq_ofNat, BitVec.toNat_zero] at hrp
      omega
    rw [takeBytes_add, ih (by omega), takeBytes_succ, takeByte_of_ne_zero f hne, takeBytes_zero,
      unconsumed_consume f g (by omega) hg, byteOf_shiftRight, consume_consume, Nat.add_zero, ← bytesOf_succ]

/-- The generator right after a refill (R140): one new raw word, none of it consumed. -/
def Generator.refilled (g : Generator) : Generator := { g.next.2 with rv := g.next.1, rp := 8 }

theorem Generator.refilled_rp_ne_zero : g.refilled.rp ≠ 0 := by
  change (8 : Byte) ≠ 0
  decide

theorem refill_of_zero {g : Generator} (hg : g.rp = 0) : refill g = g.refilled := if_pos hg

theorem unconsumed_refilled : unconsumed f g.refilled = g.next.1 := by
  cases f with
  | shift => rfl
  | index => exact BitVec.ushiftRight_zero _

/-- The engine does not see what has been consumed. -/
theorem refilled_consume (k : Nat) : (consume f k g).refilled = g.refilled := by
  cases f <;> rfl

theorem takeByte_of_zero {g : Generator} (hg : g.rp = 0) : takeByte f g = takeByte f g.refilled := by
  rw [takeByte, takeByte, refill_of_zero hg, refill, if_neg g.refilled_rp_ne_zero]

theorem takeBytes_of_zero {g : Generator} (hg : g.rp = 0) {k : Nat} (hk : 0 < k) :
    takeBytes f k g = takeBytes f k g.refilled := by
  obtain ⟨k, rfl⟩ := Nat.exists_eq_succ_of_ne_zero hk.ne'
  rw [takeBytes_succ, takeBytes_succ, takeByte_of_zero f hg]

/-- A longer read takes all unconsumed bytes, and the rest from one new raw word. -/
theorem takeBytes_of_lt {k : Nat} (hk : g.rp.toNat < k) (hk8 : k ≤ 8) :
    takeBytes f k g = (bytesOf (unconsumed f g) g.rp.toNat ++ bytesOf g.next.1 (k - g.rp.toNat),
      consume f (k - g.rp.toNat) g.refilled) := by
  have hempty : (consume f g.rp.toNat g).rp = 0 :=
    BitVec.eq_of_toNat_eq ((consume_rp_toNat f g _).trans (Nat.sub_self _))
  have hrest : k - g.rp.toNat ≤ g.refilled.rp.toNat := by change _ ≤ 8; omega
  have hsplit : takeBytes f k g = takeBytes f (g.rp.toNat + (k - g.rp.toNat)) g := by
    rw [Nat.add_sub_cancel' hk.le]
  rw [hsplit, takeBytes_add, takeBytes_of_le f g le_rfl (by omega), takeBytes_of_zero f hempty (by omega),
    refilled_consume, takeBytes_of_le f g.refilled hrest le_rfl, unconsumed_refilled]

end

end Sys2Proof.Machine
end

section
/-! In the form `SHIFT` the pending value holds nothing above its unconsumed bytes (42_byte_reader.md R142). -/

namespace Sys2Proof.Machine

/-- The unconsumed bytes are the low `RP` bytes of `RV` and the rest of it is 0 (R142). -/
def Generator.pendingLow (g : Generator) : Prop := g.rp.toNat ≤ 8 ∧ g.rv.toNat < 2 ^ (8 * g.rp.toNat)

theorem State.pendingBytesLow_iff (s : State) : s.pendingBytesLow ↔ (s.seeded = true → s.gen.pendingLow) :=
  Iff.rfl

theorem Generator.pendingLow_of_zero {g : Generator} (hrv : g.rv = 0) (hrp : g.rp = 0) : g.pendingLow := by
  rw [Generator.pendingLow, hrv, hrp]
  decide

theorem Generator.pendingLow_refilled (g : Generator) : g.refilled.pendingLow := ⟨le_rfl, g.next.1.isLt⟩

/-- Shifting out a byte lowers the bound on `RV` as the cursor falls. -/
theorem Generator.pendingLow.consume {g : Generator} (hg : g.pendingLow) {k : Nat} (hk : k ≤ g.rp.toNat) :
    (consume .shift k g).pendingLow := by
  obtain ⟨hrp, hrv⟩ := hg
  have hcursor := consume_rp_toNat .shift g k
  refine ⟨by omega, ?_⟩
  rw [hcursor]
  change (g.rv >>> (8 * k)).toNat < _
  rw [BitVec.toNat_ushiftRight, Nat.shiftRight_eq_div_pow]
  apply Nat.div_lt_of_lt_mul
  rwa [← Nat.pow_add, ← Nat.mul_add, Nat.add_sub_cancel' hk]

theorem Generator.pendingLow.takeByte {g : Generator} (hg : g.pendingLow) : (takeByte .shift g).2.pendingLow := by
  by_cases h0 : g.rp = 0
  · rw [takeByte_of_zero .shift h0, takeByte_of_ne_zero .shift g.refilled_rp_ne_zero]
    exact g.pendingLow_refilled.consume (by decide : 1 ≤ 8)
  · rw [takeByte_of_ne_zero .shift h0]
    exact hg.consume (Nat.one_le_iff_ne_zero.mpr (toNat_ne_zero_of_ne_zero h0))

theorem Generator.pendingLow.takeBytes {g : Generator} (hg : g.pendingLow) (k : Nat) :
    (takeBytes .shift k g).2.pendingLow := by
  induction k generalizing g with
  | zero => exact hg
  | succ k ih => exact ih hg.takeByte

/-- Only a `RESTORE` can put a byte above the cursor into `RV`. -/
theorem exec_keeps_pendingBytesLow {i : Instr} {s t : State} (hs : s.pendingBytesLow) (h : exec i s = .next t)
    (hi : i ≠ .restore) : t.pendingBytesLow := by
  rw [State.pendingBytesLow_iff] at hs ⊢
  cases exec_effect h with
  | raised e => exact hs
  | idle => exact hs
  | drawn hd hseeded v k hk => simpa [Generator.pendingLow] using hs
  | read c hc hseeded => exact fun _ => (hs hseeded).takeBytes c.toNat
  | seeded c hc x hx =>
    exact fun _ => Generator.pendingLow_of_zero (Generator.advance_rv _ _) (Generator.advance_rp _ _)
  | saved => exact hs
  | restored hr => exact absurd hr hi

/-- Settles O33: every command but `RESTORE` keeps the bound, no access reaches the generator but through a
command, and a reset leaves the block unseeded. -/
theorem stepKeepsThePendingBytesLow : Obligations.StepKeepsThePendingBytesLow := by
  unfold Obligations.StepKeepsThePendingBytesLow
  intro s t hs h hr
  cases step_effect h with
  | idle hp => exact hs
  | responded a rest hp r => exact hs
  | written off n v rest hp hn ho =>
    obtain ⟨hgen, -, -, hseeded, -⟩ :=
      windowWrite_frame { s with pending := rest } off.toNat (bytesOf v n.bytes)
    simpa [State.pendingBytesLow, hgen, hseeded] using hs
  | illegal off n v rest hp hn ho e hd => exact hs
  | command off n v rest hp hn ho i hd t h =>
    refine exec_keeps_pendingBytesLow (s := s.atCommand _ rest) hs h fun hi => ?_
    exact absurd ((hr _ rest hp).symm.trans (restores_of_decode hn ho (hi ▸ hd))) Bool.false_ne_true
  | reset rest hp => exact fun h => by cases h

end Sys2Proof.Machine
end

section
/-! `READ` (42_byte_reader.md R140, R141): the two guards, and its answer in closed form for both forms. -/

namespace Sys2Proof.Machine

open Sys2Proof.Claims

theorem cursorLegal_iff_toInt (g : Generator) : cursorLegal g = true ↔ 0 ≤ g.rp.toInt ∧ g.rp.toInt ≤ 8 := by
  simp [cursorLegal]

theorem read_wf {c : BitVec 4} (hc : c.toNat ≤ 8) : (Instr.read c).wf = true := decide_eq_true hc

theorem exec_read_of_le {c : BitVec 4} (hc : c.toNat ≤ 8) (s : State) :
    exec (.read c) s = readCommand .shift c.toNat s :=
  exec_read_of_wf (read_wf hc) s

section
variable {s : State} (hs : s.seeded = true) (f : ReadForm) {len : Nat}
include hs

theorem readCommand_of_not_cursorLegal (hg : ¬ cursorLegal s.gen = true) :
    readCommand f len s = .next (raised .cursorRange s) :=
  (readCommand_seeded hs f len).trans (if_neg hg)

theorem readCommand_of_le_eight (hg : s.gen.rp.toNat ≤ 8) :
    readCommand f len s =
      .next (answered (assemble (takeBytes f len s.gen).1) (takeBytes f len s.gen).2 s) :=
  (readCommand_seeded hs f len).trans (if_pos ((cursorLegal_iff _).mpr hg))

/-- `READ` within the unconsumed bytes. -/
theorem readCommand_of_le (hlen : len ≤ s.gen.rp.toNat) (hg : s.gen.rp.toNat ≤ 8) :
    readCommand f len s = .next (answered (BitVec.ofNat 64 ((unconsumed f s.gen).toNat % 2 ^ (8 * len)))
      (consume f len s.gen) s) := by
  rw [readCommand_of_le_eight hs f hg, takeBytes_of_le f _ hlen hg, assemble_eq_ofNat, bytesValue_bytesOf]

/-- `READ` beyond the unconsumed bytes. -/
theorem readCommand_of_lt (hlen : s.gen.rp.toNat < len) (hlen8 : len ≤ 8) :
    readCommand f len s = .next (answered
      (BitVec.ofNat 64 (((unconsumed f s.gen).toNat % 2 ^ (8 * s.gen.rp.toNat) +
        s.gen.next.1.toNat * 2 ^ (8 * s.gen.rp.toNat)) % 2 ^ (8 * len)))
      (consume f (len - s.gen.rp.toNat) s.gen.refilled) s) := by
  rw [readCommand_of_le_eight hs f (hlen.le.trans hlen8), takeBytes_of_lt f _ hlen hlen8, assemble_eq_ofNat,
    bytesValue_bytesOf_append, Nat.add_sub_cancel' hlen.le]

end

/-- Under `INDEX` the unconsumed bytes are the high ones of `RV` (R142). -/
theorem unconsumed_index_toNat (g : Generator) :
    (unconsumed .index g).toNat = g.rv.toNat / 2 ^ (8 * (8 - g.rp.toNat)) := by
  rw [unconsumed, BitVec.toNat_ushiftRight, Nat.shiftRight_eq_div_pow]

/-- Nothing stands above them. -/
theorem unconsumed_index_lt {g : Generator} (hg : g.rp.toNat ≤ 8) :
    (unconsumed .index g).toNat < 2 ^ (8 * g.rp.toNat) := by
  have hsplit : 64 = 8 * (8 - g.rp.toNat) + 8 * g.rp.toNat := by omega
  rw [unconsumed_index_toNat]
  apply Nat.div_lt_of_lt_mul
  rw [← Nat.pow_add, ← hsplit]
  exact g.rv.isLt

theorem decode_read {c : BitVec 4} (hc : c.toNat ≤ 8) :
    decode (BitVec.ofNat 32 (c.toNat * 0x100 + 0x30)) = .ok (.read c) := by
  have hword : c.toNat * 0x100 + 0x30 = (encode (.read c)).toNat := by
    rw [toNat_encode, count, opcode, BitVec.ofNat_eq_ofNat, BitVec.toNat_ofNat]
  rw [hword, BitVec.ofNat_toNat, BitVec.setWidth_eq, decode_encode]
  exact withCount_of_wf (read_wf hc)

/-- Settles O30: the guards on `SEEDED` and the cursor, then a read within the unconsumed bytes and one beyond
them. (`readCommand` is the model's operation, so the theorem has a longer name.) -/
theorem readCommand_closedForm : Obligations.ReadCommand := by
  unfold Obligations.ReadCommand
  refine ⟨fun c => decode_read, fun c s hc => ?_⟩
  dsimp only
  rw [exec_read_of_le hc]
  refine ⟨fun hs => withGenerator_unseeded hs _, fun hs hg => ?_, fun hs hlen hg => ⟨?_, ?_⟩,
    fun hs hlen => ⟨?_, ?_⟩⟩
  · exact readCommand_of_not_cursorLegal hs _ fun hl => by
      rw [cursorLegal_iff_toInt] at hl
      omega
  · exact readCommand_of_le hs .shift hlen hg
  · rw [← unconsumed_index_toNat]
    exact readCommand_of_le hs .index hlen hg
  · exact readCommand_of_lt hs .shift hlen hc
  · rw [← unconsumed_index_toNat, ← Nat.mod_eq_of_lt (unconsumed_index_lt (hlen.le.trans hc))]
    exact readCommand_of_lt hs .index hlen hc

/-- Settles O31: a pattern above 8 is no legal cursor. -/
theorem badCursorReadRaises : Obligations.BadCursorReadRaises := by
  unfold Obligations.BadCursorReadRaises
  intro c s hc hs hg
  have hl : ¬ cursorLegal s.gen = true := fun hl => Nat.not_lt.mpr ((cursorLegal_iff _).mp hl) hg
  exact ⟨_, (exec_read_of_le hc s).trans (readCommand_of_not_cursorLegal hs _ hl), rfl, rfl, rfl⟩

end Sys2Proof.Machine
end

section
/-! The forms `SHIFT` and `INDEX` emit the same bytes (42_byte_reader.md R142): a simulation, one byte at a time. -/

namespace Sys2Proof.Machine

open Sys2Proof.Claims

section
variable {g h : Generator} (hs : sameStream g h)
include hs

theorem rp_eq_of_sameStream : g.rp = h.rp := by
  obtain ⟨-, -, -, -, hrp, -⟩ := hs
  exact hrp

theorem unconsumed_eq_of_sameStream (hne : g.rp.toNat ≠ 0) : unconsumed .shift g = unconsumed .index h := by
  obtain ⟨-, -, -, -, hrp, -, hrv⟩ := hs
  rw [unconsumed, unconsumed, ← hrp, hrv hne]

/-- A refill forgets where the bytes stood. -/
theorem refilled_eq_of_sameStream : g.refilled = h.refilled := by
  obtain ⟨ha, hb, hc, hw, -⟩ := hs
  simp [Generator.refilled, Generator.next, ha, hb, hc, hw]

theorem sameStream_consume {k : Nat} (hk : k ≤ g.rp.toNat) :
    sameStream (consume .shift k g) (consume .index k h) := by
  have hbytes := unconsumed_eq_of_sameStream hs
  obtain ⟨ha, hb, hc, hw, hrp, hg, -⟩ := hs
  have hcursor := consume_rp_toNat .shift g k
  refine ⟨ha, hb, hc, hw, congrArg (fun p : Byte => BitVec.ofNat 8 (p.toNat - k)) hrp, by omega, fun hne => ?_⟩
  have hshift := unconsumed_consume .shift g hk hg
  have hindex := unconsumed_consume .index h (hrp ▸ hk) (hrp ▸ hg)
  rw [hbytes (by omega), ← hindex] at hshift
  rw [hcursor, hrp, ← consume_rp_toNat .index h k]
  exact hshift

end

theorem sameStream_refilled (g : Generator) : sameStream g.refilled g.refilled :=
  ⟨rfl, rfl, rfl, rfl, rfl, le_rfl, fun _ => (BitVec.ushiftRight_zero _).symm⟩

theorem takeByte_sameStream_of_ne_zero {g h : Generator} (hs : sameStream g h) (hne : g.rp ≠ 0) :
    (takeByte .shift g).1 = (takeByte .index h).1 ∧ sameStream (takeByte .shift g).2 (takeByte .index h).2 := by
  have hcursor := toNat_ne_zero_of_ne_zero hne
  have hrp := rp_eq_of_sameStream hs
  rw [takeByte_of_ne_zero .shift hne, takeByte_of_ne_zero .index (hrp ▸ hne)]
  exact ⟨by rw [unconsumed_eq_of_sameStream hs hcursor], sameStream_consume hs (Nat.one_le_iff_ne_zero.mpr hcursor)⟩

/-- One byte of each form (R142): the same byte, and the same stream after it. -/
theorem takeByte_sameStream {g h : Generator} (hs : sameStream g h) :
    (takeByte .shift g).1 = (takeByte .index h).1 ∧ sameStream (takeByte .shift g).2 (takeByte .index h).2 := by
  by_cases h0 : g.rp = 0
  · have hrp := rp_eq_of_sameStream hs
    rw [takeByte_of_zero .shift h0, takeByte_of_zero .index (hrp ▸ h0), ← refilled_eq_of_sameStream hs]
    exact takeByte_sameStream_of_ne_zero (sameStream_refilled g) g.refilled_rp_ne_zero
  · exact takeByte_sameStream_of_ne_zero hs h0

/-- Settles O34: each byte keeps the simulation. -/
theorem readFormsEmitTheSameBytes : Obligations.ReadFormsEmitTheSameBytes := by
  unfold Obligations.ReadFormsEmitTheSameBytes
  intro len
  induction len with
  | zero => exact fun g h hs => ⟨rfl, hs⟩
  | succ len ih =>
    intro g h hs
    obtain ⟨hbyte, hnext⟩ := takeByte_sameStream hs
    obtain ⟨hbytes, hlast⟩ := ih _ _ hnext
    exact ⟨congrArg₂ List.cons hbyte hbytes, hlast⟩

end Sys2Proof.Machine
end

section
/-! A sequence of `READ` commands is one read of their total length (42_byte_reader.md R143). -/

namespace Sys2Proof.Machine

open Sys2Proof.Claims

/-- `s` after `k` bytes are taken, with the result `r` and the error `e`. -/
def State.afterBytes (s : State) (k : Nat) (r : Word64) (e : Option CommandError) : State :=
  { s with gen := (takeBytes .shift k s.gen).2, result := r, err := e }

theorem exec_read_eq_afterBytes {c : BitVec 4} {s : State} (hc : c.toNat ≤ 8) (hs : s.seeded = true)
    (hg : s.gen.rp.toNat ≤ 8) :
    exec (.read c) s = .next (s.afterBytes c.toNat (assemble (takeBytes .shift c.toNat s.gen).1) none) :=
  (exec_read_of_le hc s).trans (readCommand_of_le_eight hs .shift hg)

theorem State.afterBytes_afterBytes (s : State) (j k : Nat) (r r' : Word64) (e e' : Option CommandError) :
    (s.afterBytes j r e).afterBytes k r' e' = s.afterBytes (j + k) r' e' := by
  simp only [State.afterBytes, takeBytes_add]

theorem runReads_cons {c : BitVec 4} {cs : List (BitVec 4)} {s t : State} (h : exec (.read c) s = .next t)
    (ht : t.err = none) :
    runReads (c :: cs) s = (runReads cs t).map fun r => (bytesOf t.result c.toNat ++ r.1, r.2) := by
  rw [runReads, h]
  exact if_pos ht

/-- The commands collect the next bytes of the stream, as many as their counts sum to. -/
theorem runReads_eq {cs : List (BitVec 4)} (hcs : ∀ c ∈ cs, c.toNat ≤ 8) {s : State} (hs : s.seeded = true)
    (hg : s.gen.rp.toNat ≤ 8) :
    ∃ r e, runReads cs s = some ((takeBytes .shift (cs.map BitVec.toNat).sum s.gen).1,
      s.afterBytes (cs.map BitVec.toNat).sum r e) := by
  induction cs generalizing s with
  | nil => exact ⟨s.result, s.err, rfl⟩
  | cons c cs ih =>
    have hc := hcs c List.mem_cons_self
    have hbytes : bytesOf (assemble (takeBytes .shift c.toNat s.gen).1) c.toNat =
        (takeBytes .shift c.toNat s.gen).1 := by
      simpa using bytesOf_assemble (l := (takeBytes .shift c.toNat s.gen).1) (by simpa using hc)
    obtain ⟨r, e, hrest⟩ := ih (fun d hd => hcs d (List.mem_cons_of_mem _ hd))
      (s := s.afterBytes c.toNat (assemble (takeBytes .shift c.toNat s.gen).1) none) hs
      (takeBytes_rp_le .shift c.toNat hg)
    refine ⟨r, e, ?_⟩
    rw [runReads_cons (exec_read_eq_afterBytes hc hs hg) rfl, hrest, State.afterBytes_afterBytes, List.map_cons,
      List.sum_cons, takeBytes_add]
    exact congrArg (fun l => some (l ++ _, _)) hbytes

/-- Settles O35: either sequence is one read of the common total. -/
theorem chunksDoNotMatter : Obligations.ChunksDoNotMatter := by
  unfold Obligations.ChunksDoNotMatter
  intro cs ds s hs hg hcs hds hsum
  obtain ⟨r, e, hrun⟩ := runReads_eq hcs hs hg
  obtain ⟨r', e', hrun'⟩ := runReads_eq hds hs hg
  rw [← hsum] at hrun'
  exact ⟨_, _, _, hrun, hrun', takeBytes_length _ _ _, rfl, rfl⟩

end Sys2Proof.Machine
end

section
/-! The byte reader's part of the generator is invisible to the other drawing commands (10_state.md R38,
42_byte_reader.md R144). -/

namespace Sys2Proof.Machine

open Sys2Proof.Claims

/-- `g` with another pending value and cursor. -/
def Generator.setStream (g : Generator) (rv : Word64) (rp : Byte) : Generator := { g with rv := rv, rp := rp }

/-- The state a result ends in, with another pending value and cursor. -/
def setStream (r : Result) (rv : Word64) (rp : Byte) : Result :=
  match r with
  | .next t => .next (t.setGen (t.gen.setStream rv rp))
  | .fault f => .fault f
  | .refused f => .refused f

section
variable (rv : Word64) (rp : Byte)

theorem Generator.setStream_next (g : Generator) :
    (g.setStream rv rp).next = (g.next.1, g.next.2.setStream rv rp) := g.next_setStream rv rp

theorem Generator.setStream_advance (k : Nat) (g : Generator) :
    Generator.advance k (g.setStream rv rp) = (Generator.advance k g).setStream rv rp := by
  induction k generalizing g with
  | zero => rfl
  | succ k ih => rw [Generator.advance_succ, Generator.setStream_next, ih, Generator.advance_succ]

theorem sample64_setStream (m : RefineMode) (n : Word64) (g : Generator) :
    sample64 m n (g.setStream rv rp) = ((sample64 m n g).1, (sample64 m n g).2.setStream rv rp) := by
  by_cases h : refineNeeded m (lo64 (mul128 n g.next.1)) n = true
  · rw [sample64_of_refine h, sample64_of_refine (g := g.setStream rv rp) h]
    rfl
  · rw [sample64_of_not_refine h, sample64_of_not_refine (g := g.setStream rv rp) h]
    rfl

theorem bounded_setStream (p : Config.Params) (n : Word64) (g : Generator) :
    bounded p n (g.setStream rv rp) = ((bounded p n g).1, (bounded p n g).2.setStream rv rp) := by
  by_cases hn : n = 0
  · rw [hn, bounded_zero, bounded_zero, Generator.setStream_advance]
  · rw [bounded_of_ne_zero p hn, bounded_of_ne_zero p hn, sample64_setStream]

variable (s : State)

theorem withGenerator_setStream {k k' : Generator → Result}
    (hk : ∀ g, k' (g.setStream rv rp) = setStream (k g) rv rp) :
    withGenerator (s.setGen (s.gen.setStream rv rp)) k' = setStream (withGenerator s k) rv rp := by
  cases hs : s.seeded with
  | false =>
    rw [withGenerator_unseeded hs, withGenerator_unseeded (s := s.setGen (s.gen.setStream rv rp)) hs]
    rfl
  | true =>
    rw [withGenerator_seeded hs, withGenerator_seeded (s := s.setGen (s.gen.setStream rv rp)) hs, ← hk,
      State.setGen_gen]

theorem convert_setStream (f : Word64 → Word64) :
    convert f (s.setGen (s.gen.setStream rv rp)) = setStream (convert f s) rv rp :=
  withGenerator_setStream rv rp s fun _ => rfl

theorem unsignedBounded_setStream (p : Config.Params) (n : Word64) :
    unsignedBounded p n (s.setGen (s.gen.setStream rv rp)) = setStream (unsignedBounded p n s) rv rp :=
  withGenerator_setStream rv rp s fun g => by rw [bounded_setStream]; rfl

theorem signedBounded_setStream (p : Config.Params) (n : Int) (x : Word64) :
    signedBounded p n x (s.setGen (s.gen.setStream rv rp)) = setStream (signedBounded p n x s) rv rp :=
  withGenerator_setStream rv rp s fun g => by
    by_cases hn : n ≤ 0
    · rw [if_pos hn, if_pos hn]; rfl
    · rw [if_neg hn, if_neg hn, sample64_setStream]; rfl

/-- A command that only draws carries `RV` and `RP` along. -/
theorem exec_setStream {i : Instr} (hi : draws i = true) :
    exec i (s.setGen (s.gen.setStream rv rp)) = setStream (exec i s) rv rp := by
  cases i with
  | nop | seed | read | save | restore => cases hi
  | next64 => exact withGenerator_setStream rv rp s fun _ => rfl
  | uint32 | int31 | int63 | int | float64 | float32 => exact convert_setStream rv rp s _
  | uint64n | uint32n | uintn => exact unsignedBounded_setStream rv rp s _ _
  | int64n | int32n | intn => exact signedBounded_setStream rv rp s _ _ _

end

/-- Settles O36: the frame of the commands that do not touch the byte stream, and the drawing commands carrying it
along. -/
theorem otherCommandsLeaveTheByteStream : Obligations.OtherCommandsLeaveTheByteStream := by
  unfold Obligations.OtherCommandsLeaveTheByteStream
  refine ⟨fun i s t hread hseed hrestore h => exec_keeps_stream h hread hseed hrestore, ?_⟩
  intro i hi s t rv rp h
  exact (exec_setStream rv rp s (draws_of_mem_drawing i hi)).trans (congrArg (setStream · rv rp) h)

end Sys2Proof.Machine
end

section
/-! The converters (43_converters.md R150 to R158): the low bits of one raw word, and the float patterns they
encode to. -/

namespace Sys2Proof.Machine

open Sys2Proof.Claims

theorem lowBits_eq_ofNat (k : Nat) (v : Word64) : lowBits k v = BitVec.ofNat 64 (v.toNat % 2 ^ k) := by
  apply BitVec.eq_of_getLsbD_eq
  intro i hi
  rw [lowBits, BitVec.getLsbD_and, BitVec.getLsbD_ofNat, BitVec.getLsbD_ofNat, Nat.testBit_two_pow_sub_one,
    Nat.testBit_mod_two_pow, BitVec.testBit_toNat]
  simp [hi, Bool.and_comm]

/-- The whole outcome of a converter that reduces the low `k` bits of its raw word by `f`. -/
theorem convert_lowBits (k : Nat) (f : Word64 → Word64) (s : State) :
    (s.seeded = false → convert (fun v => f (lowBits k v)) s = .next (raised .notSeeded s)) ∧
    (s.seeded = true → convert (fun v => f (lowBits k v)) s =
      .next (answered (f (BitVec.ofNat 64 (s.gen.next.1.toNat % 2 ^ k))) s.gen.next.2 s)) := by
  rw [← lowBits_eq_ofNat]
  exact ⟨fun hs => withGenerator_unseeded hs _, fun hs => convert_seeded hs _⟩

/-- Settles O37: the low 32 bits, as they stand. -/
theorem uint32Command : Obligations.Uint32Command := by
  unfold Obligations.Uint32Command
  exact ⟨by decide, convert_lowBits 32 id⟩

/-- Settles O38: the low 31 bits, as they stand. -/
theorem int31Command : Obligations.Int31Command := by
  unfold Obligations.Int31Command
  exact ⟨by decide, convert_lowBits 31 id⟩

/-- Settles O39: the low 63 bits, as they stand. -/
theorem int63Command : Obligations.Int63Command := by
  unfold Obligations.Int63Command
  exact ⟨by decide, convert_lowBits 63 id⟩

/-- Settles O40: for either word size `INT` is the converter of that size, and the configured size is 64. -/
theorem intCommand : Obligations.IntCommand := by
  unfold Obligations.IntCommand
  exact ⟨by decide, fun s => ⟨rfl, rfl, rfl⟩, fun s => (convert_lowBits 63 id s).2⟩

/-- Settles O41: the low 53 bits, encoded. -/
theorem float64Command : Obligations.Float64Command := by
  unfold Obligations.Float64Command
  exact ⟨by decide, convert_lowBits 53 f64bits⟩

/-- Settles O42: the low 24 bits, encoded and zero-extended. -/
theorem float32Command : Obligations.Float32Command := by
  unfold Obligations.Float32Command
  exact ⟨by decide, convert_lowBits 24 fun m => (f32bits m).setWidth 64⟩

/-- R155: with `p` fraction bits and the exponent field `c` for a highest bit at place 0, the exponent field of the
pattern `b` is that of the highest bit of `m`, and the significand of `b` at this exponent is `m` exactly. -/
def ExactPattern (p c m b : Nat) : Prop :=
  b / 2 ^ p = c + m.log2 ∧ c ≤ b / 2 ^ p ∧ b / 2 ^ p ≤ c + p ∧
    (2 ^ p + b % 2 ^ p) * 2 ^ (b / 2 ^ p - c) = m * 2 ^ p

theorem ExactPattern.lt {p c m b : Nat} (h : ExactPattern p c m b) : b < (c + p + 1) * 2 ^ p := by
  obtain ⟨-, -, hexponent, -⟩ := h
  exact (Nat.div_lt_iff_lt_mul (Nat.two_pow_pos p)).mp (Nat.lt_succ_of_le hexponent)

section
variable {p m : Nat} (h0 : m ≠ 0) (hm : m < 2 ^ (p + 1))
include h0 hm

theorem log2_le_of_lt : m.log2 ≤ p := Nat.le_of_lt_succ ((Nat.log2_lt h0).mpr hm)

/-- Left-aligned, `m` has its highest bit at place `p`. -/
theorem leftAligned_bounds : 2 ^ p ≤ m * 2 ^ (p - m.log2) ∧ m * 2 ^ (p - m.log2) < 2 ^ (p + 1) := by
  have hsplit : m.log2 + (p - m.log2) = p := Nat.add_sub_of_le (log2_le_of_lt h0 hm)
  constructor
  · calc 2 ^ p = 2 ^ m.log2 * 2 ^ (p - m.log2) := by rw [← pow_add, hsplit]
      _ ≤ m * 2 ^ (p - m.log2) := Nat.mul_le_mul_right _ (Nat.log2_self_le h0)
  · calc m * 2 ^ (p - m.log2) < 2 ^ (m.log2 + 1) * 2 ^ (p - m.log2) :=
          Nat.mul_lt_mul_of_pos_right Nat.lt_log2_self (Nat.two_pow_pos _)
      _ = 2 ^ (p + 1) := by rw [← pow_add, Nat.add_right_comm, hsplit]

/-- The hidden bit is the highest bit of the left-aligned `m`, and the fraction field the rest of it. -/
theorem hiddenBit_add_fraction : 2 ^ p + m * 2 ^ (p - m.log2) % 2 ^ p = m * 2 ^ (p - m.log2) := by
  obtain ⟨hlow, hhigh⟩ := leftAligned_bounds h0 hm
  rw [pow_succ] at hhigh
  rw [Nat.mod_eq_sub_mod hlow, Nat.mod_eq_of_lt (by omega), Nat.add_sub_of_le hlow]

/-- A pattern is exact when its fields are the exponent of the highest bit and the bits left-aligned below it. -/
theorem exactPattern_of_fields (c : Nat) :
    ExactPattern p c m (2 ^ p * (c + m.log2) + m * 2 ^ (p - m.log2) % 2 ^ p) := by
  have hpos : 0 < 2 ^ p := Nat.two_pow_pos p
  obtain ⟨hexponent, hfraction⟩ :=
    (Nat.div_mod_unique hpos).mpr ⟨Nat.add_comm _ (2 ^ p * (c + m.log2)), Nat.mod_lt (m * 2 ^ (p - m.log2)) hpos⟩
  have hle := log2_le_of_lt h0 hm
  rw [ExactPattern, hexponent, hfraction, Nat.add_sub_cancel_left, hiddenBit_add_fraction h0 hm, Nat.mul_assoc,
    ← pow_add, Nat.sub_add_cancel hle]
  exact ⟨rfl, Nat.le_add_right c _, Nat.add_le_add_left hle c, rfl⟩

end

theorem toNat_append_eq_add {j k : Nat} (x : BitVec j) (y : BitVec k) :
    (x ++ y).toNat = 2 ^ k * x.toNat + y.toNat := by
  rw [BitVec.toNat_append, ← Nat.shiftLeft_add_eq_or_of_lt y.isLt, Nat.shiftLeft_eq, Nat.mul_comm]

/-- The three fields of either format's pattern: a sign of 0, `k` exponent bits and `p` fraction bits. -/
theorem toNat_fields {k p c : Nat} {m : Word64} (h0 : m.toNat ≠ 0) (hm : m.toNat < 2 ^ (p + 1)) (hp : p + 1 ≤ 64)
    (hc : c + p < 2 ^ k) :
    (0#1 ++ BitVec.ofNat k (c + m.toNat.log2) ++ (m <<< (p - m.toNat.log2)).extractLsb' 0 p).toNat =
      2 ^ p * (c + m.toNat.log2) + m.toNat * 2 ^ (p - m.toNat.log2) % 2 ^ p := by
  have hle := log2_le_of_lt h0 hm
  have hfit : m.toNat * 2 ^ (p - m.toNat.log2) < 2 ^ 64 :=
    (leftAligned_bounds h0 hm).2.trans_le (Nat.pow_le_pow_right (by decide) hp)
  have hshift : (m <<< (p - m.toNat.log2)).toNat = m.toNat * 2 ^ (p - m.toNat.log2) := by
    rw [BitVec.toNat_shiftLeft, Nat.shiftLeft_eq, Nat.mod_eq_of_lt hfit]
  rw [toNat_append_eq_add, toNat_append_eq_add, BitVec.toNat_zero, Nat.mul_zero, Nat.zero_add, BitVec.toNat_ofNat,
    Nat.mod_eq_of_lt (by omega), BitVec.extractLsb'_toNat, Nat.shiftRight_zero, hshift]

theorem f64bits_exact {m : Word64} (h0 : m.toNat ≠ 0) (hm : m.toNat < 2 ^ 53) :
    ExactPattern 52 970 m.toNat (f64bits m).toNat := by
  rw [f64bits, if_neg (BitVec.toNat_ne.mpr h0), toNat_fields h0 hm (by decide) (by decide)]
  exact exactPattern_of_fields h0 hm 970

theorem f32bits_exact {m : Word64} (h0 : m.toNat ≠ 0) (hm : m.toNat < 2 ^ 24) :
    ExactPattern 23 103 m.toNat (f32bits m).toNat := by
  rw [f32bits, if_neg (BitVec.toNat_ne.mpr h0), toNat_fields h0 hm (by decide) (by decide)]
  exact exactPattern_of_fields h0 hm 103

/-- Settles O43: the fields of either pattern are exact, and a normal exponent leaves the sign bit 0. -/
theorem floatPatternsAreExact : Obligations.FloatPatternsAreExact := by
  unfold Obligations.FloatPatternsAreExact
  refine ⟨rfl, rfl, fun m h0 hm => ?_, fun m h0 hm => ?_⟩
  · have hexact := f64bits_exact h0.ne' hm
    exact ⟨hexact.lt.trans (by decide), hexact⟩
  · have hexact := f32bits_exact h0.ne' hm
    exact ⟨hexact.lt.trans (by decide), hexact⟩

theorem f64bits_le {m : Word64} (hm : m.toNat < 2 ^ 53) : (f64bits m).toNat ≤ 0x3FEFFFFFFFFFFFFF := by
  by_cases h0 : m = 0
  · subst h0; decide
  · exact Nat.le_of_lt_succ (f64bits_exact (BitVec.toNat_ne.mp h0) hm).lt

theorem f32bits_le {m : Word64} (hm : m.toNat < 2 ^ 24) : (f32bits m).toNat ≤ 0x3F7FFFFF := by
  by_cases h0 : m = 0
  · subst h0; decide
  · exact Nat.le_of_lt_succ (f32bits_exact (BitVec.toNat_ne.mp h0) hm).lt

theorem lowBits_lt (k : Nat) (v : Word64) : (lowBits k v).toNat < 2 ^ k := by
  rw [lowBits_eq_ofNat, BitVec.toNat_ofNat]
  exact (Nat.mod_le _ _).trans_lt (Nat.mod_lt _ (Nat.two_pow_pos k))

/-- Settles O44: the exponent field of a pattern is at most that of the highest value below 1. -/
theorem floatsStayBelowOne : Obligations.FloatsStayBelowOne := by
  unfold Obligations.FloatsStayBelowOne
  intro s hs
  refine ⟨_, _, convert_seeded hs _, convert_seeded hs _, f64bits_le (lowBits_lt 53 _), ?_⟩
  calc (float32Of s.gen.next.1).toNat
      = (f32bits (lowBits 24 s.gen.next.1)).toNat := BitVec.toNat_setWidth_of_le (by decide)
    _ ≤ 0x3F7FFFFF := f32bits_le (lowBits_lt 24 _)

end Sys2Proof.Machine
end

section
/-! The codec (44_codec.md R170 to R174): the image `SAVE` writes and the generator `RESTORE` reads are each other's
inverse, byte by byte. -/

namespace Sys2Proof.Machine

/-- The whole outcome of `SAVE` on a seeded block (R172). -/
theorem exec_save_of_seeded {s : State} (hs : s.seeded = true) :
    exec .save s =
      .next { s with img := Memory.writeBytes s.img 0 (imageOf s.gen), imgLen := 41, err := none } :=
  (execSave_seeded hs).trans (complete_setImg_setImgLen s _ _)

/-- The whole outcome of `RESTORE` on an image that is long enough (R173). -/
theorem exec_restore_of_le {s : State} (hl : 41 ≤ s.imgLen.toNat) :
    exec .restore s = .next { s with gen := generatorOf s.img, seeded := true, err := none } :=
  if_neg (Nat.not_lt.mpr hl)

/-- A word whose bytes stand at `k` is the word read there. -/
theorem assemble_readBytes_eq {m : List Host.Cell} {k : Nat} {x : Word64}
    (h : ∀ i < 8, Memory.read m (k + i) = byteOf x i) : assemble (Memory.readBytes m k 8) = x :=
  word_ext_bytes fun i hi => (byteOf_readBytes m k hi).trans (h i hi)

section
variable (m : List Host.Cell) (g : Generator)

/-- Where the bytes of the five 64-bit registers stand in the image after `SAVE` (R170). -/
theorem read_savedImage_words {i : Nat} (hi : i < 8) :
    Memory.read (Memory.writeBytes m 0 (imageOf g)) i = byteOf g.a i ∧
    Memory.read (Memory.writeBytes m 0 (imageOf g)) (8 + i) = byteOf g.b i ∧
    Memory.read (Memory.writeBytes m 0 (imageOf g)) (16 + i) = byteOf g.c i ∧
    Memory.read (Memory.writeBytes m 0 (imageOf g)) (24 + i) = byteOf g.w i ∧
    Memory.read (Memory.writeBytes m 0 (imageOf g)) (32 + i) = byteOf g.rv i := by
  -- Each index falls in the branch of its own register, by the bound on `i`.
  refine ⟨?_, ?_, ?_, ?_, ?_⟩ <;> rw [read_savedImage, imageOf_getD] <;> grind

theorem read_savedImage_cursor : Memory.read (Memory.writeBytes m 0 (imageOf g)) 40 = g.rp := by
  rw [read_savedImage, imageOf_getD]
  rfl

theorem read_savedImage_padding {i : Nat} (h41 : 41 ≤ i) (h48 : i < 48) :
    Memory.read (Memory.writeBytes m 0 (imageOf g)) i = 0 := by
  rw [read_savedImage, if_pos h48, imageOf_getD]
  grind

/-- `RESTORE` reads back the generator that `SAVE` wrote (R174). -/
theorem generatorOf_savedImage : generatorOf (Memory.writeBytes m 0 (imageOf g)) = g := by
  have hwords := fun i (hi : i < 8) => read_savedImage_words m g hi
  simp only [forall_and] at hwords
  obtain ⟨ha, hb, hc, hw, hrv⟩ := hwords
  rw [generatorOf, assemble_readBytes_eq (by simpa using ha), assemble_readBytes_eq hb, assemble_readBytes_eq hc,
    assemble_readBytes_eq hw, assemble_readBytes_eq hrv, read_savedImage_cursor]

/-- Where the bytes of the five 64-bit registers of the generator in an image come from (R170). -/
theorem byteOf_generatorOf {i : Nat} (hi : i < 8) :
    byteOf (generatorOf m).a i = Memory.read m i ∧ byteOf (generatorOf m).b i = Memory.read m (8 + i) ∧
    byteOf (generatorOf m).c i = Memory.read m (16 + i) ∧ byteOf (generatorOf m).w i = Memory.read m (24 + i) ∧
    byteOf (generatorOf m).rv i = Memory.read m (32 + i) := by
  simp only [generatorOf, byteOf_readBytes m _ hi, Nat.zero_add, and_self]

/-- `SAVE` writes back the 41 bytes that `RESTORE` read (R174). -/
theorem read_savedImage_generatorOf {i : Nat} (hi : i ≤ 40) :
    Memory.read (Memory.writeBytes m 0 (imageOf (generatorOf m))) i = Memory.read m i := by
  obtain rfl | ⟨j, hj, hij⟩ : i = 40 ∨ ∃ j < 8, i = j ∨ i = 8 + j ∨ i = 16 + j ∨ i = 24 + j ∨ i = 32 + j := by
    by_cases h : i = 40
    · exact .inl h
    · exact .inr ⟨i % 8, by omega, by omega⟩
  · exact read_savedImage_cursor m (generatorOf m)
  · have hwords := read_savedImage_words m (generatorOf m) hj
    simp only [byteOf_generatorOf m hj] at hwords
    obtain ⟨ha, hb, hc, hw, hrv⟩ := hwords
    obtain rfl | rfl | rfl | rfl | rfl := hij
    · exact ha
    · exact hb
    · exact hc
    · exact hw
    · exact hrv

end

/-- Settles O45: the outcome of `SAVE`, and what its image holds at each index. -/
theorem saveCommand : Obligations.SaveCommand := by
  unfold Obligations.SaveCommand
  refine ⟨by decide, fun s => ⟨fun hs => withGenerator_unseeded hs _, fun hs => ⟨_, exec_save_of_seeded hs, ?_⟩⟩⟩
  exact ⟨fun _ => read_savedImage_words _ _, read_savedImage_cursor _ _, fun _ => read_savedImage_padding _ _,
    fun i hi => (read_savedImage _ _ i).trans (if_neg (Nat.not_lt.mpr hi))⟩

/-- Settles O46: the guard on `IMGLEN`, and where each byte of the generator comes from. -/
theorem restoreCommand : Obligations.RestoreCommand := by
  unfold Obligations.RestoreCommand
  exact ⟨by decide, fun s => ⟨fun hl => if_pos hl,
    fun hl => ⟨_, exec_restore_of_le hl, fun _ => byteOf_generatorOf s.img, rfl⟩⟩⟩

/-- Settles O47: `generatorOf_savedImage` is the first direction, `read_savedImage_generatorOf` the second; the
length that `SAVE` sets is enough for `RESTORE`, and `RESTORE` seeds the block for `SAVE`. -/
theorem saveAndRestoreRoundTrip : Obligations.SaveAndRestoreRoundTrip := by
  unfold Obligations.SaveAndRestoreRoundTrip
  refine ⟨fun s hs => ⟨_, _, exec_save_of_seeded hs, exec_restore_of_le le_rfl, ?_, rfl, ?_⟩, fun s hl =>
    ⟨_, _, exec_restore_of_le hl, exec_save_of_seeded rfl, fun _ => read_savedImage_generatorOf s.img⟩⟩
  · exact generatorOf_savedImage s.img s.gen
  · rw [generatorOf_savedImage, ← hs]

end Sys2Proof.Machine
end

section
/-! The control command, and a write to `CMD` of a word that spells none (45_control.md R180, R181). -/

namespace Sys2Proof.Machine

/-- `STATUS[3:0]` holds the error code (R32). -/
theorem statusWord_mod_sixteen (s : State) : (statusWord s).toNat % 16 = (errCode s.err).toNat := by
  have herr := (errCode s.err).isLt
  rw [statusWord_toNat]
  omega

/-- `STATUS[5]` is `STICKY` (R32). -/
theorem statusWord_getLsbD_five (s : State) : (statusWord s).getLsbD 5 = s.sticky := by
  simp only [statusWord, BitVec.getLsbD_append]
  simp

/-- Settles O4: the write reaches `CMD`, its word is not decoded, and the raise sets `ERR` and `STICKY`, which
`STATUS` shows. -/
theorem illegalWordOnlySetsStatus : Obligations.IllegalWordOnlySetsStatus := by
  unfold Obligations.IllegalWordOnlySetsStatus
  intro s n v rest hp hn hw
  refine ⟨_, ?_, rfl, statusWord_mod_sixteen _, statusWord_getLsbD_five _⟩
  rw [step_of_pending hp, perform_commandWrite hn, runCommand_of_not_spellsCommand hw, raise_eq]
  rfl

/-- Settles O48: `NOP` completes, with no guard on `SEEDED`. -/
theorem nopCommand : Obligations.NopCommand := by
  unfold Obligations.NopCommand
  exact ⟨by decide, complete_eq⟩

end Sys2Proof.Machine
end

section
/-! The errors of the commands (60_exceptions.md R200 to R205): what a raise leaves, and which command raises what. -/

namespace Sys2Proof.Machine

open Sys2Proof.Claims

/-- Settles O49: `raise` is the only outcome that leaves a code in `ERR`, and it writes `ERR` and `STICKY` alone. -/
theorem raiseChangesOnlyStatus : Obligations.RaiseChangesOnlyStatus := by
  unfold Obligations.RaiseChangesOnlyStatus
  intro i s t e h he
  cases exec_effect h with
  | raised e' => cases he; rfl
  | idle | drawn | read | seeded | saved | restored => cases he

/-- The error a command's own argument check finds, by the table of R200. `INTN` has the configured width 64 (R5). -/
def ownError (i : Instr) (s : State) : Option CommandError :=
  match i with
  | .int64n | .intn => if signedBound64 s ≤ 0 then some .invalidArgument else none
  | .int32n => if signedBound32 s ≤ 0 then some .invalidArgument else none
  | .restore => if s.imgLen.toNat < imageLength then some .insufficientData else none
  | .read _ => if cursorLegal s.gen then none else some .cursorRange
  | .nop | .seed _ | .next64 | .uint32 | .int31 | .int63 | .int | .float64 | .float32
  | .uint64n | .uint32n | .uintn | .save => none

/-- The commands that do not run on an unseeded block (R200). -/
def needsSeed : Instr → Bool
  | .nop | .seed _ | .restore => false
  | .next64 | .uint32 | .int31 | .int63 | .int | .float64 | .float32
  | .uint64n | .uint32n | .uintn | .int64n | .int32n | .intn | .read _ | .save => true

/-- The error a well-formed command reports: an unseeded block comes before the command's own check (R205). -/
def commandError (i : Instr) (s : State) : Option CommandError :=
  if needsSeed i && !s.seeded then some .notSeeded else ownError i s

/-- The result is a next state whose `ERR` is `e`. -/
def Reports (r : Result) (e : Option CommandError) : Prop := ∃ t, r = .next t ∧ t.err = e

section
variable (s : State)

theorem Reports.raised (e : CommandError) : Reports (raise e s) (some e) := ⟨_, rfl, rfl⟩

theorem Reports.completed : Reports (complete s) none := ⟨_, rfl, rfl⟩

theorem Reports.delivered (r : Word64 × Generator) : Reports (deliver r s) none := ⟨_, rfl, rfl⟩

theorem Reports.ite {c : Prop} [Decidable c] {x y : Result} {e f : Option CommandError} (hx : Reports x e)
    (hy : Reports y f) : Reports (if c then x else y) (if c then e else f) := by
  split
  · exact hx
  · exact hy

/-- The guard on `SEEDED` comes before what the command itself checks. -/
theorem Reports.guarded {i : Instr} (hi : needsSeed i = true) {k : Generator → Result}
    (hk : Reports (k s.gen) (ownError i s)) : Reports (withGenerator s k) (commandError i s) := by
  rw [commandError, hi]
  cases hs : s.seeded
  · rw [withGenerator_unseeded hs]
    exact .raised s _
  · rw [withGenerator_seeded hs]
    exact hk

/-- The checks of every well-formed command, and their order. -/
theorem exec_reports {i : Instr} (hwf : i.wf = true) : Reports (exec i s) (commandError i s) := by
  cases i with
  | nop => exact .completed s
  | seed c =>
    simp only [Instr.wf, Bool.and_eq_true, decide_eq_true_eq] at hwf
    obtain ⟨hlow, hhigh⟩ := hwf
    obtain ⟨x, hx, -⟩ := seedTriple_of_agree (s := s) hlow hhigh rfl (fun _ => rfl) fun _ => rfl
    exact ⟨_, exec_seed_of_seedTriple hx, rfl⟩
  | restore => exact .ite (c := s.imgLen.toNat < imageLength) (.raised s _) (.completed _)
  | read c =>
    rw [exec_read_of_wf hwf]
    exact .guarded s rfl (.ite (.delivered s _) (.raised s _))
  | save => exact .guarded s rfl (.completed _)
  | int64n | int32n | intn => exact .guarded s rfl (.ite (.raised s _) (.delivered s _))
  | next64 | uint32 | int31 | int63 | int | float64 | float32 | uint64n | uint32n | uintn =>
    exact .guarded s rfl (.delivered s _)

end

theorem err_of_exec {i : Instr} {s t : State} (hwf : i.wf = true) (h : exec i s = .next t) :
    t.err = commandError i s := by
  obtain ⟨t', h', he⟩ := exec_reports s hwf
  cases h'.symm.trans h
  exact he

section
variable (i : Instr) (s : State)

theorem needsSeed_iff : needsSeed i = true ↔ i ≠ .nop ∧ i ≠ .restore ∧ ∀ c, i ≠ .seed c := by
  cases i <;> simp [needsSeed]

theorem ownError_ne_notSeeded : ownError i s ≠ some .notSeeded := by
  cases i <;> simp [ownError]

theorem ownError_ne_illegalCommand : ownError i s ≠ some .illegalCommand := by
  cases i <;> simp [ownError]

theorem commandError_eq_notSeeded_iff : commandError i s = some .notSeeded ↔
    s.seeded = false ∧ i ≠ .nop ∧ i ≠ .restore ∧ ∀ c, i ≠ .seed c := by
  simp [← needsSeed_iff, commandError, ownError_ne_notSeeded, and_comm]

/-- Every other error is found by the command's own check, once the block is seeded or need not be. -/
theorem commandError_eq_some_iff {e : CommandError} (he : e ≠ .notSeeded) :
    commandError i s = some e ↔ (needsSeed i = true → s.seeded = true) ∧ ownError i s = some e := by
  simp [commandError, ite_eq_iff, he.symm]

theorem commandError_eq_invalidArgument_iff : commandError i s = some .invalidArgument ↔ s.seeded = true ∧
    ((i = .int64n ∧ signedBound64 s ≤ 0) ∨ (i = .int32n ∧ signedBound32 s ≤ 0) ∨
      (i = .intn ∧ signedBound64 s ≤ 0)) := by
  refine (commandError_eq_some_iff i s (by decide)).trans ?_
  cases i <;> simp [needsSeed, ownError]

theorem commandError_eq_insufficientData_iff :
    commandError i s = some .insufficientData ↔ i = .restore ∧ s.imgLen.toNat < imageLength := by
  refine (commandError_eq_some_iff i s (by decide)).trans ?_
  cases i <;> simp [needsSeed, ownError]

theorem commandError_eq_cursorRange_iff :
    commandError i s = some .cursorRange ↔ s.seeded = true ∧ 8 < s.gen.rp.toNat ∧ ∃ c, i = .read c := by
  rw [← Nat.not_le, ← cursorLegal_iff]
  refine (commandError_eq_some_iff i s (by decide)).trans ?_
  cases i <;> simp [needsSeed, ownError]

theorem commandError_ne_illegalCommand : commandError i s ≠ some .illegalCommand := fun h =>
  ownError_ne_illegalCommand i s ((commandError_eq_some_iff i s (by decide)).mp h).2

end

/-- Settles O50: `err_of_exec` reads `ERR` off the table `commandError`, whose rows the five lemmas above state. -/
theorem errorsAreRaisedByTheirCommands : Obligations.ErrorsAreRaisedByTheirCommands := by
  unfold Obligations.ErrorsAreRaisedByTheirCommands
  refine ⟨rfl, rfl, rfl, rfl, rfl, rfl, fun i s t hwf h => ?_⟩
  rw [err_of_exec hwf h]
  exact ⟨commandError_eq_invalidArgument_iff i s, commandError_eq_insufficientData_iff i s,
    commandError_eq_notSeeded_iff i s, commandError_eq_cursorRange_iff i s, commandError_ne_illegalCommand i s⟩

end Sys2Proof.Machine
end

section
/-! The block after a reset (70_reset_and_hazards.md R230). -/

namespace Sys2Proof.Machine

/-- What R230 says of the block: every interface register and every image byte reads 0, no bit of `STATUS` is set,
and the generator holds no value. -/
def State.HoldsResetValues (t : State) : Prop :=
  t.cmd = 0 ∧ t.err = none ∧ t.seeded = false ∧ t.sticky = false ∧ statusWord t = 0 ∧ t.arg0 = 0 ∧
    t.arg1 = 0 ∧ t.arg2 = 0 ∧ t.result = 0 ∧ t.imgLen = 0 ∧ (∀ i, Memory.read t.img i = 0) ∧
    t.readGenerator = .error .generatorHoldsNoValue

/-- A reset takes itself off the queue and leaves the actions behind it (log 15). -/
theorem step_of_reset {s : State} {rest : List HostAction} (hp : s.pending = .reset :: rest) :
    step s = .next (State.reset.setPending rest) := by
  rw [step_of_pending hp]
  rfl

theorem statusWord_reset : statusWord State.reset = 0 := by decide

theorem holdsResetValues_setPending (rest : List HostAction) : (State.reset.setPending rest).HoldsResetValues :=
  ⟨rfl, rfl, rfl, rfl, statusWord_reset, rfl, rfl, rfl, rfl, rfl, fun _ => rfl, rfl⟩

/-- Settles O8: the reset action leaves the reset state with the rest of the queue, and in the reset state itself
that rest is empty. -/
theorem resetLeavesTheValuesOfTheSpec : Obligations.ResetLeavesTheValuesOfTheSpec := by
  unfold Obligations.ResetLeavesTheValuesOfTheSpec
  exact ⟨fun _ rest hp => ⟨_, step_of_reset hp, rfl, holdsResetValues_setPending rest⟩,
    holdsResetValues_setPending []⟩

/-- Settles O58: the image has no cell, no error stands, and `RESULT` is 0. -/
theorem resetMeetsTheInvariant : Obligations.ResetMeetsTheInvariant := by
  unfold Obligations.ResetMeetsTheInvariant
  exact ⟨Memory.wf_reset, fun herr => absurd rfl herr, fun _ => rfl⟩

end Sys2Proof.Machine
end

section
/-! No command and no step stops the block (60_exceptions.md R203, R204, 70_reset_and_hazards.md R241). -/

namespace Sys2Proof.Machine

/-- Every outcome of a command is a raise or a completion, and both are next states. -/
theorem exec_total (i : Instr) (s : State) : ∃ t, exec i s = .next t := by
  cases exec_outcome i s with
  | raised _ h | idle _ h | drawn _ _ _ _ _ h | read _ _ _ _ _ h | seeded _ _ _ _ h | saved _ _ h
  | restored _ _ h => exact ⟨_, h⟩

/-- An action is answered, raises, runs a command, or resets the block. -/
theorem perform_total (a : HostAction) (s : State) : ∃ t, perform a s = .next t := by
  cases perform_outcome a s with
  | command _ _ _ i _ _ _ _ h => exact h ▸ exec_total i _
  | refused _ h | read _ _ _ _ h | written _ _ _ _ _ _ h | illegal _ _ _ _ _ _ _ _ h | reset _ h => exact ⟨_, h⟩

/-- Settles O9: a step is idle or performs an action, and a command is the one action with outcomes of its own. -/
theorem nothingStopsTheBlock : Obligations.NothingStopsTheBlock := by
  unfold Obligations.NothingStopsTheBlock
  refine ⟨exec_total, fun s => ?_⟩
  rcases step_cases s with ⟨-, h⟩ | ⟨a, rest, -, h⟩
  · exact ⟨_, h⟩
  · exact h ▸ perform_total a _

end Sys2Proof.Machine
end

section
/-! How many engine transitions a command makes (70_reset_and_hazards.md R241). -/

namespace Sys2Proof.Machine

open Sys2Proof.Claims

/-- The commands that draw exactly one raw word: `NEXT64` and the converters. -/
def singleDraw : List Instr := [.next64, .uint32, .int31, .int63, .int, .float64, .float32]

/-- The bounded commands. -/
def boundedDraw : List Instr := [.uint64n, .uint32n, .uintn, .int64n, .int32n, .intn]

theorem draws_of_mem_singleDraw : ∀ i ∈ singleDraw, draws i = true := by decide

theorem draws_of_mem_boundedDraw : ∀ i ∈ boundedDraw, draws i = true := by decide

theorem exec_singleDraw_seeded {i : Instr} (hi : i ∈ singleDraw) {s : State} (hs : s.seeded = true) :
    ∃ v, exec i s = deliver (v, Generator.advance 1 s.gen) s := by
  simp only [singleDraw, List.mem_cons, List.not_mem_nil, or_false] at hi
  rcases hi with rfl | hi
  · exact ⟨_, execNext64_seeded hs⟩
  · rcases hi with rfl | rfl | rfl | rfl | rfl | rfl <;> exact ⟨_, convert_seeded hs _⟩

/-- `READ` refills at most once (R140): consuming a byte leaves the engine, and a refill gives 8 bytes. -/
theorem takeBytes_engine (f : ReadForm) {len : Nat} (hlen : len ≤ 8) {g : Generator} (hg : g.rp.toNat ≤ 8) :
    ∃ k ≤ 1, (takeBytes f len g).2.engine = (Generator.advance k g).engine := by
  have hconsume : ∀ (j : Nat) (g' : Generator), (consume f j g').engine = g'.engine := fun _ _ => by
    cases f <;> rfl
  rcases Nat.lt_or_ge g.rp.toNat len with hlt | hle
  · exact ⟨1, le_rfl, by rw [takeBytes_of_lt f g hlt hlen, hconsume]; rfl⟩
  · exact ⟨0, by omega, by rw [takeBytes_of_le f g hle hg, hconsume]; rfl⟩

section
variable {i : Instr} {s t : State} (h : exec i s = .next t)
include h

theorem exec_keeps_generator_of_raised (herr : t.err ≠ none) : t.gen = s.gen := by
  obtain ⟨e, he⟩ := Option.ne_none_iff_exists'.mp herr
  rw [raiseChangesOnlyStatus i s t e h he]
  rfl

theorem seeded_of_completed_draw (hi : draws i = true) (hok : t.err = none) : s.seeded = true := by
  rcases draws_outcome hi s with ⟨-, h'⟩ | ⟨hs, -⟩
  · cases h'.symm.trans h
    cases hok
  · exact hs

theorem exec_singleDraw_gen (hi : i ∈ singleDraw) (hok : t.err = none) : t.gen = Generator.advance 1 s.gen := by
  obtain ⟨v, hv⟩ := exec_singleDraw_seeded hi (seeded_of_completed_draw h (draws_of_mem_singleDraw i hi) hok)
  cases hv.symm.trans h
  rfl

theorem exec_draws_at_most_twice (hi : draws i = true) : ∃ k ≤ 2, t.gen = Generator.advance k s.gen := by
  rcases draws_outcome hi s with ⟨-, h'⟩ | ⟨-, h' | ⟨v, k, hk, h'⟩⟩ <;> cases h'.symm.trans h
  · exact ⟨0, by omega, rfl⟩
  · exact ⟨0, by omega, rfl⟩
  · exact ⟨k, hk, rfl⟩

theorem exec_read_engine (hi : ∃ c, i = .read c) :
    ∃ k ≤ 1, t.gen.engine = (Generator.advance k s.gen).engine := by
  obtain ⟨c, rfl⟩ := hi
  cases exec_effect h with
  | raised => exact ⟨0, by omega, rfl⟩
  | read c' _ _ hc hl => exact takeBytes_engine _ hc ((cursorLegal_iff _).mp hl)
  | drawn hd | idle hd | saved hd | restored hd => cases hd
  | seeded _ hd => cases hd

theorem exec_restore_gen (hi : i = .restore) : t.gen = s.gen ∨ t.gen = generatorOf s.img := by
  subst hi
  cases exec_effect h with
  | raised => exact .inl rfl
  | restored => exact .inr rfl
  | drawn hd | idle hd | saved hd => cases hd
  | read _ hd | seeded _ hd => cases hd

end

/-- A well-formed `SEED` has a seed, so it never raises. -/
theorem exec_seed_gen {c : BitVec 4} {s t : State} (hwf : (Instr.seed c).wf = true)
    (h : exec (.seed c) s = .next t) :
    ∃ x, t.gen = Generator.advance Config.params.warmup (freshlySeeded x) := by
  simp only [Instr.wf, Bool.and_eq_true, decide_eq_true_eq] at hwf
  obtain ⟨hlow, hhigh⟩ := hwf
  obtain ⟨x, hx, -⟩ := seedTriple_of_agree (s := s) hlow hhigh rfl (fun _ => rfl) fun _ => rfl
  cases (exec_seed_of_seedTriple hx).symm.trans h
  exact ⟨x, rfl⟩

/-- Settles O10: the lemmas above, one per family of commands. -/
theorem drawCountsAreBounded : Obligations.DrawCountsAreBounded := by
  unfold Obligations.DrawCountsAreBounded
  intro i s t hwf h
  refine ⟨exec_keeps_generator h, exec_restore_gen h, ?_, fun c hc => exec_read_engine h ⟨c, hc⟩,
    exec_singleDraw_gen h, fun hi => exec_draws_at_most_twice h (draws_of_mem_boundedDraw i hi),
    fun _ => exec_keeps_generator_of_raised h⟩
  rintro c rfl
  exact exec_seed_gen hwf h

end Sys2Proof.Machine
end
